-- ==== Sys2Proof/Word.lean ====
section
/-! DEFINITION. The machine's two word types (00_scope.md R6, R7). -/

namespace Sys2Proof

/-- A register, a flag byte or a memory byte: 8 bits (R6). -/
abbrev Byte := BitVec 8

/-- The program counter or an effective address: 16 bits (R6). -/
abbrev Addr := BitVec 16

end Sys2Proof
end

