-- ==== Sys2Proof/Syntax.lean ====
section
/-! DEFINITION. The instructions as syntax: operations, addressing modes, operand forms, and `Instr`
(30_encoding.md R81 to R100). An instruction is one operation of the catalog at one addressing mode with its operand
bytes; every row of spec/opcode_table.json is one constructor at one form (notes/assumptions/19.md). -/

namespace Sys2Proof

/-- The thirteen addressing modes (R83, R86 to R98; 90_conflicts.md C2). -/
inductive AddrMode where
  | implied | accumulator | immediate | zeroPage | zeroPageX | zeroPageY | relative
  | absolute | absoluteX | absoluteY | indirect | indirectX | indirectY
deriving DecidableEq, Repr

/-- An addressing mode with its operand bytes, not yet resolved: what the bytes after the opcode say (R82). A two-byte
operand is held as the 16-bit value b2:b1 (R93). -/
inductive Form where
  | implied
  | accumulator
  | immediate (c : Byte)
  | zeroPage (b : Byte)
  | zeroPageX (b : Byte)
  | zeroPageY (b : Byte)
  | relative (b : Byte)
  | absolute (w : Addr)
  | absoluteX (w : Addr)
  | absoluteY (w : Addr)
  | indirect (w : Addr)
  | indirectX (b : Byte)
  | indirectY (b : Byte)
deriving DecidableEq, Repr

/-- The addressing mode of a form. -/
def Form.mode : Form → AddrMode
  | .implied => .implied
  | .accumulator => .accumulator
  | .immediate _ => .immediate
  | .zeroPage _ => .zeroPage
  | .zeroPageX _ => .zeroPageX
  | .zeroPageY _ => .zeroPageY
  | .relative _ => .relative
  | .absolute _ => .absolute
  | .absoluteX _ => .absoluteX
  | .absoluteY _ => .absoluteY
  | .indirect _ => .indirect
  | .indirectX _ => .indirectX
  | .indirectY _ => .indirectY

/-- The kinds of resolved operand: no operand, accumulator, immediate constant, memory address (R85). -/
inductive OperandKind where
  | none | acc | const | addr
deriving DecidableEq, Repr

/-- The 45 implemented operations (R100): a catalog entry names one of these or is undefined. -/
inductive Operation where
  /-- LDA: load accumulator (R120). -/
  | lda
  /-- LDX: load X (R121). -/
  | ldx
  /-- LDY: load Y (R122). -/
  | ldy
  /-- STA: store accumulator (R123). -/
  | sta
  /-- STX: store X (R124). -/
  | stx
  /-- STY: store Y (R125). -/
  | sty
  /-- TAX: transfer A to X (R140). -/
  | tax
  /-- TXA: transfer X to A (R141). -/
  | txa
  /-- TAY: transfer A to Y (R142). -/
  | tay
  /-- TYA: transfer Y to A (R143). -/
  | tya
  /-- TSX: transfer SP to X (R144). -/
  | tsx
  /-- TXS: transfer X to SP (R145). -/
  | txs
  /-- INC: increment memory (R160). -/
  | inc
  /-- DEC: decrement memory (R161). -/
  | dec
  /-- INX: increment X (R162). -/
  | inx
  /-- INY: increment Y (R163). -/
  | iny
  /-- DEX: decrement X (R165). -/
  | dex
  /-- DEY: decrement Y (R166). -/
  | dey
  /-- ASL: arithmetic shift left (R180). -/
  | asl
  /-- CMP: compare accumulator (R190). -/
  | cmp
  /-- CPX: compare X (R191). -/
  | cpx
  /-- CPY: compare Y (R192). -/
  | cpy
  /-- SEC: set carry (R200). -/
  | sec
  /-- CLC: clear carry (R201). -/
  | clc
  /-- SEI: set interrupt-mask (R202). -/
  | sei
  /-- CLI: clear interrupt-mask (R203). -/
  | cli
  /-- SED: set decimal (R204). -/
  | sed
  /-- CLD: clear decimal (R205). -/
  | cld
  /-- CLV: clear overflow (R206). -/
  | clv
  /-- PHA: push accumulator (R220). -/
  | pha
  /-- PHP: push status (R221). -/
  | php
  /-- PLA: pull accumulator (R222). -/
  | pla
  /-- PLP: pull status (R223). -/
  | plp
  /-- JMP: jump (R241). -/
  | jmp
  /-- JSR: jump to subroutine (R243). -/
  | jsr
  /-- RTS: return from subroutine (R244). -/
  | rts
  /-- BCC: branch if carry clear (R245). -/
  | bcc
  /-- BCS: branch if carry set (R246). -/
  | bcs
  /-- BNE: branch if zero clear (R247). -/
  | bne
  /-- BEQ: branch if zero set (R248). -/
  | beq
  /-- BVC: branch if overflow clear (R249). -/
  | bvc
  /-- BVS: branch if overflow set (R250). -/
  | bvs
  /-- BPL: branch if negative clear (R251). -/
  | bpl
  /-- BMI: branch if negative set (R252). -/
  | bmi
  /-- NOP: no operation (R270). -/
  | nop
deriving DecidableEq, Repr

/-- The instructions: an operation with its operand form, or the undefined sentinel with its opcode byte. Which forms an
operation has is `Instr.check` (WellFormed.lean). -/
inductive Instr where
  /-- LDA: load accumulator (R120). -/
  | lda (f : Form)
  /-- LDX: load X (R121). -/
  | ldx (f : Form)
  /-- LDY: load Y (R122). -/
  | ldy (f : Form)
  /-- STA: store accumulator (R123). -/
  | sta (f : Form)
  /-- STX: store X (R124). -/
  | stx (f : Form)
  /-- STY: store Y (R125). -/
  | sty (f : Form)
  /-- TAX: transfer A to X (R140). -/
  | tax (f : Form)
  /-- TXA: transfer X to A (R141). -/
  | txa (f : Form)
  /-- TAY: transfer A to Y (R142). -/
  | tay (f : Form)
  /-- TYA: transfer Y to A (R143). -/
  | tya (f : Form)
  /-- TSX: transfer SP to X (R144). -/
  | tsx (f : Form)
  /-- TXS: transfer X to SP (R145). -/
  | txs (f : Form)
  /-- INC: increment memory (R160). -/
  | inc (f : Form)
  /-- DEC: decrement memory (R161). -/
  | dec (f : Form)
  /-- INX: increment X (R162). -/
  | inx (f : Form)
  /-- INY: increment Y (R163). -/
  | iny (f : Form)
  /-- DEX: decrement X (R165). -/
  | dex (f : Form)
  /-- DEY: decrement Y (R166). -/
  | dey (f : Form)
  /-- ASL: arithmetic shift left (R180). -/
  | asl (f : Form)
  /-- CMP: compare accumulator (R190). -/
  | cmp (f : Form)
  /-- CPX: compare X (R191). -/
  | cpx (f : Form)
  /-- CPY: compare Y (R192). -/
  | cpy (f : Form)
  /-- SEC: set carry (R200). -/
  | sec (f : Form)
  /-- CLC: clear carry (R201). -/
  | clc (f : Form)
  /-- SEI: set interrupt-mask (R202). -/
  | sei (f : Form)
  /-- CLI: clear interrupt-mask (R203). -/
  | cli (f : Form)
  /-- SED: set decimal (R204). -/
  | sed (f : Form)
  /-- CLD: clear decimal (R205). -/
  | cld (f : Form)
  /-- CLV: clear overflow (R206). -/
  | clv (f : Form)
  /-- PHA: push accumulator (R220). -/
  | pha (f : Form)
  /-- PHP: push status (R221). -/
  | php (f : Form)
  /-- PLA: pull accumulator (R222). -/
  | pla (f : Form)
  /-- PLP: pull status (R223). -/
  | plp (f : Form)
  /-- JMP: jump (R241). -/
  | jmp (f : Form)
  /-- JSR: jump to subroutine (R243). -/
  | jsr (f : Form)
  /-- RTS: return from subroutine (R244). -/
  | rts (f : Form)
  /-- BCC: branch if carry clear (R245). -/
  | bcc (f : Form)
  /-- BCS: branch if carry set (R246). -/
  | bcs (f : Form)
  /-- BNE: branch if zero clear (R247). -/
  | bne (f : Form)
  /-- BEQ: branch if zero set (R248). -/
  | beq (f : Form)
  /-- BVC: branch if overflow clear (R249). -/
  | bvc (f : Form)
  /-- BVS: branch if overflow set (R250). -/
  | bvs (f : Form)
  /-- BPL: branch if negative clear (R251). -/
  | bpl (f : Form)
  /-- BMI: branch if negative set (R252). -/
  | bmi (f : Form)
  /-- NOP: no operation (R270). -/
  | nop (f : Form)
  /-- UNDEFINED: one of the 164 bytes that no operation has (R101, R281). -/
  | undefined (op : Byte)
deriving DecidableEq, Repr

/-- The instruction of an operation at a form. -/
def Operation.instr : Operation → Form → Instr
  | .lda, f => .lda f
  | .ldx, f => .ldx f
  | .ldy, f => .ldy f
  | .sta, f => .sta f
  | .stx, f => .stx f
  | .sty, f => .sty f
  | .tax, f => .tax f
  | .txa, f => .txa f
  | .tay, f => .tay f
  | .tya, f => .tya f
  | .tsx, f => .tsx f
  | .txs, f => .txs f
  | .inc, f => .inc f
  | .dec, f => .dec f
  | .inx, f => .inx f
  | .iny, f => .iny f
  | .dex, f => .dex f
  | .dey, f => .dey f
  | .asl, f => .asl f
  | .cmp, f => .cmp f
  | .cpx, f => .cpx f
  | .cpy, f => .cpy f
  | .sec, f => .sec f
  | .clc, f => .clc f
  | .sei, f => .sei f
  | .cli, f => .cli f
  | .sed, f => .sed f
  | .cld, f => .cld f
  | .clv, f => .clv f
  | .pha, f => .pha f
  | .php, f => .php f
  | .pla, f => .pla f
  | .plp, f => .plp f
  | .jmp, f => .jmp f
  | .jsr, f => .jsr f
  | .rts, f => .rts f
  | .bcc, f => .bcc f
  | .bcs, f => .bcs f
  | .bne, f => .bne f
  | .beq, f => .beq f
  | .bvc, f => .bvc f
  | .bvs, f => .bvs f
  | .bpl, f => .bpl f
  | .bmi, f => .bmi f
  | .nop, f => .nop f

/-- The operation of an instruction; the undefined sentinel has none. -/
def Instr.operation : Instr → Option Operation
  | .lda _ => some .lda
  | .ldx _ => some .ldx
  | .ldy _ => some .ldy
  | .sta _ => some .sta
  | .stx _ => some .stx
  | .sty _ => some .sty
  | .tax _ => some .tax
  | .txa _ => some .txa
  | .tay _ => some .tay
  | .tya _ => some .tya
  | .tsx _ => some .tsx
  | .txs _ => some .txs
  | .inc _ => some .inc
  | .dec _ => some .dec
  | .inx _ => some .inx
  | .iny _ => some .iny
  | .dex _ => some .dex
  | .dey _ => some .dey
  | .asl _ => some .asl
  | .cmp _ => some .cmp
  | .cpx _ => some .cpx
  | .cpy _ => some .cpy
  | .sec _ => some .sec
  | .clc _ => some .clc
  | .sei _ => some .sei
  | .cli _ => some .cli
  | .sed _ => some .sed
  | .cld _ => some .cld
  | .clv _ => some .clv
  | .pha _ => some .pha
  | .php _ => some .php
  | .pla _ => some .pla
  | .plp _ => some .plp
  | .jmp _ => some .jmp
  | .jsr _ => some .jsr
  | .rts _ => some .rts
  | .bcc _ => some .bcc
  | .bcs _ => some .bcs
  | .bne _ => some .bne
  | .beq _ => some .beq
  | .bvc _ => some .bvc
  | .bvs _ => some .bvs
  | .bpl _ => some .bpl
  | .bmi _ => some .bmi
  | .nop _ => some .nop
  | .undefined _ => none

/-- The operand form of an instruction; the undefined sentinel fetches no operand byte (R101). -/
def Instr.form : Instr → Form
  | .lda f => f
  | .ldx f => f
  | .ldy f => f
  | .sta f => f
  | .stx f => f
  | .sty f => f
  | .tax f => f
  | .txa f => f
  | .tay f => f
  | .tya f => f
  | .tsx f => f
  | .txs f => f
  | .inc f => f
  | .dec f => f
  | .inx f => f
  | .iny f => f
  | .dex f => f
  | .dey f => f
  | .asl f => f
  | .cmp f => f
  | .cpx f => f
  | .cpy f => f
  | .sec f => f
  | .clc f => f
  | .sei f => f
  | .cli f => f
  | .sed f => f
  | .cld f => f
  | .clv f => f
  | .pha f => f
  | .php f => f
  | .pla f => f
  | .plp f => f
  | .jmp f => f
  | .jsr f => f
  | .rts f => f
  | .bcc f => f
  | .bcs f => f
  | .bne f => f
  | .beq f => f
  | .bvc f => f
  | .bvs f => f
  | .bpl f => f
  | .bmi f => f
  | .nop f => f
  | .undefined _ => .implied

end Sys2Proof
end

