-- ==== Sys2Proof/Config.lean ====
section
/-! DEFINITION. The implementation parameters of the CORE (00_scope.md R6). `Config.default`, with the default catalog,
stands in Decode.lean. No parameter is left uninterpreted: the spec states a default for each. -/

namespace Sys2Proof

/-- The informational cycle-cost descriptor of a catalog entry (R81, R105, R318): no rule reads it. -/
inductive CycleCost where
  | exact (n : Nat)
  | exactPlusPageCross (n : Nat)
  | branchDependent
deriving DecidableEq, Repr

/-- One defined entry of the Instruction Catalog (R81). -/
structure CatalogRow where
  opcode : Byte
  operation : Operation
  mode : AddrMode
  cycles : CycleCost
deriving DecidableEq, Repr

/-- What a host load that runs past 0xFFFF does (92_eei_decisions.md D19). -/
inductive LoadOverrun where
  | refuse
  | wrap
  | truncate
deriving DecidableEq, Repr

/-- The five parameters a model takes (R6). A byte absent from `catalog` is undefined. -/
structure Config where
  catalog : List CatalogRow
  indxDeref : Bool
  jmpIndPageWrap : Bool
  plpStubVerbatim : Bool
  loadOverrun : LoadOverrun
deriving DecidableEq, Repr

end Sys2Proof
end

