-- ==== Sys2Proof/WellFormed.lean ====
section
/-! DEFINITION. Which instructions the default catalog has: the forms of each operation, from the "Operands" line of its
own rule (R120 to R270), and the undefined bytes, from the list of R101. Decode.lean's table is written from R100; that
the two agree is tested, not assumed. -/

namespace Sys2Proof

/-- The addressing modes each operation takes (the operation's own rule). -/
def Operation.modes : Operation → List AddrMode
  | .lda => [.immediate, .zeroPage, .zeroPageX, .absolute, .absoluteX, .absoluteY, .indirectX, .indirectY]
  | .ldx => [.immediate, .zeroPage, .zeroPageY, .absolute, .absoluteY]
  | .ldy => [.immediate, .zeroPage, .zeroPageX, .absolute, .absoluteX]
  | .sta => [.zeroPage, .zeroPageX, .absolute, .absoluteX, .absoluteY, .indirectX, .indirectY]
  | .stx => [.zeroPage, .zeroPageY, .absolute]
  | .sty => [.zeroPage, .zeroPageX, .absolute]
  | .tax => [.implied]
  | .txa => [.implied]
  | .tay => [.implied]
  | .tya => [.implied]
  | .tsx => [.implied]
  | .txs => [.implied]
  | .inc => [.zeroPage, .zeroPageX, .absolute, .absoluteX]
  | .dec => [.zeroPage, .zeroPageX, .absolute, .absoluteX]
  | .inx => [.implied]
  | .iny => [.implied]
  | .dex => [.implied]
  | .dey => [.implied]
  | .asl => [.accumulator, .zeroPage, .zeroPageX, .absolute, .absoluteX]
  | .cmp => [.immediate, .zeroPage, .zeroPageX, .absolute, .absoluteX, .absoluteY, .indirectX, .indirectY]
  | .cpx => [.immediate, .zeroPage, .absolute]
  | .cpy => [.immediate, .zeroPage, .absolute]
  | .sec => [.implied]
  | .clc => [.implied]
  | .sei => [.implied]
  | .cli => [.implied]
  | .sed => [.implied]
  | .cld => [.implied]
  | .clv => [.implied]
  | .pha => [.implied]
  | .php => [.implied]
  | .pla => [.implied]
  | .plp => [.implied]
  | .jmp => [.absolute, .indirect]
  | .jsr => [.absolute]
  | .rts => [.implied]
  | .bcc => [.relative]
  | .bcs => [.relative]
  | .bne => [.relative]
  | .beq => [.relative]
  | .bvc => [.relative]
  | .bvs => [.relative]
  | .bpl => [.relative]
  | .bmi => [.relative]
  | .nop => [.implied]

/-- The 164 undefined opcode bytes (R101). -/
def undefinedOpcodes : List Byte :=
  [0x00, 0x01, 0x02, 0x03, 0x04, 0x05, 0x07, 0x09, 0x0B, 0x0C, 0x0D, 0x0F, 0x11, 0x12] ++
  [0x13, 0x14, 0x15, 0x17, 0x19, 0x1A, 0x1B, 0x1C, 0x1D, 0x1F, 0x21, 0x22, 0x23, 0x24] ++
  [0x25, 0x26, 0x27, 0x29, 0x2A, 0x2B, 0x2C, 0x2D, 0x2E, 0x2F, 0x31, 0x32, 0x33, 0x34] ++
  [0x35, 0x36, 0x37, 0x39, 0x3A, 0x3B, 0x3C, 0x3D, 0x3E, 0x3F, 0x40, 0x41, 0x42, 0x43] ++
  [0x44, 0x45, 0x46, 0x47, 0x49, 0x4A, 0x4B, 0x4D, 0x4E, 0x4F, 0x51, 0x52, 0x53, 0x54] ++
  [0x55, 0x56, 0x57, 0x59, 0x5A, 0x5B, 0x5C, 0x5D, 0x5E, 0x5F, 0x61, 0x62, 0x63, 0x64] ++
  [0x65, 0x66, 0x67, 0x69, 0x6A, 0x6B, 0x6D, 0x6E, 0x6F, 0x71, 0x72, 0x73, 0x74, 0x75] ++
  [0x76, 0x77, 0x79, 0x7A, 0x7B, 0x7C, 0x7D, 0x7E, 0x7F, 0x80, 0x82, 0x83, 0x87, 0x89] ++
  [0x8B, 0x8F, 0x92, 0x93, 0x97, 0x9B, 0x9C, 0x9E, 0x9F, 0xA3, 0xA7, 0xAB, 0xAF, 0xB2] ++
  [0xB3, 0xB7, 0xBB, 0xBF, 0xC2, 0xC3, 0xC7, 0xCB, 0xCF, 0xD2, 0xD3, 0xD4, 0xD7, 0xDA] ++
  [0xDB, 0xDC, 0xDF, 0xE1, 0xE2, 0xE3, 0xE5, 0xE7, 0xE9, 0xEB, 0xED, 0xEF, 0xF1, 0xF2] ++
  [0xF3, 0xF4, 0xF5, 0xF7, 0xF9, 0xFA, 0xFB, 0xFC, 0xFD, 0xFF]

/-- Why an instruction is ill-formed. -/
inductive IllFormed where
  /-- The operation does not exist at this addressing mode. -/
  | modeNotOfOperation
  /-- The byte is a defined opcode, so it is not the undefined sentinel's. -/
  | opcodeIsDefined
deriving DecidableEq, Repr

/-- The check of an instruction: nothing, or what is wrong with it. -/
def Instr.check (i : Instr) : Option IllFormed :=
  match i with
  | .undefined op => if undefinedOpcodes.contains op then none else some .opcodeIsDefined
  | i =>
    match i.operation with
    | some o => if o.modes.contains i.form.mode then none else some .modeNotOfOperation
    | none => none

/-- A well-formed instruction: one that the default catalog has. -/
abbrev Instr.WellFormed (i : Instr) : Prop := i.check = none

end Sys2Proof
end

