-- ==== Sys2Proof/Decode.lean ====
section
/-! DEFINITION. The default Instruction Catalog (R100, with the cycle descriptors of R318), the decoder over any catalog,
and the encoder. The opcode bytes are the spec's decision D1 (notes/assumptions/3.md). -/

namespace Sys2Proof

/-! ## The catalog, one list per row of the opcode map of R100 -/

/-- Opcodes 0x00 to 0x0F. -/
def catalogRow0 : List CatalogRow :=
  [⟨0x06, .asl, .zeroPage, .exact 5⟩, ⟨0x08, .php, .implied, .exact 3⟩,
   ⟨0x0A, .asl, .accumulator, .exact 2⟩, ⟨0x0E, .asl, .absolute, .exact 6⟩]

/-- Opcodes 0x10 to 0x1F. -/
def catalogRow1 : List CatalogRow :=
  [⟨0x10, .bpl, .relative, .branchDependent⟩, ⟨0x16, .asl, .zeroPageX, .exact 6⟩,
   ⟨0x18, .clc, .implied, .exact 2⟩, ⟨0x1E, .asl, .absoluteX, .exact 7⟩]

/-- Opcodes 0x20 to 0x2F. -/
def catalogRow2 : List CatalogRow :=
  [⟨0x20, .jsr, .absolute, .exact 6⟩, ⟨0x28, .plp, .implied, .exact 4⟩]

/-- Opcodes 0x30 to 0x3F. -/
def catalogRow3 : List CatalogRow :=
  [⟨0x30, .bmi, .relative, .branchDependent⟩, ⟨0x38, .sec, .implied, .exact 2⟩]

/-- Opcodes 0x40 to 0x4F. -/
def catalogRow4 : List CatalogRow :=
  [⟨0x48, .pha, .implied, .exact 3⟩, ⟨0x4C, .jmp, .absolute, .exact 3⟩]

/-- Opcodes 0x50 to 0x5F. -/
def catalogRow5 : List CatalogRow :=
  [⟨0x50, .bvc, .relative, .branchDependent⟩, ⟨0x58, .cli, .implied, .exact 2⟩]

/-- Opcodes 0x60 to 0x6F. -/
def catalogRow6 : List CatalogRow :=
  [⟨0x60, .rts, .implied, .exact 6⟩, ⟨0x68, .pla, .implied, .exact 4⟩,
   ⟨0x6C, .jmp, .indirect, .exact 5⟩]

/-- Opcodes 0x70 to 0x7F. -/
def catalogRow7 : List CatalogRow :=
  [⟨0x70, .bvs, .relative, .branchDependent⟩, ⟨0x78, .sei, .implied, .exact 2⟩]

/-- Opcodes 0x80 to 0x8F. -/
def catalogRow8 : List CatalogRow :=
  [⟨0x81, .sta, .indirectX, .exact 6⟩, ⟨0x84, .sty, .zeroPage, .exact 3⟩,
   ⟨0x85, .sta, .zeroPage, .exact 3⟩, ⟨0x86, .stx, .zeroPage, .exact 3⟩,
   ⟨0x88, .dey, .implied, .exact 2⟩, ⟨0x8A, .txa, .implied, .exact 2⟩,
   ⟨0x8C, .sty, .absolute, .exact 4⟩, ⟨0x8D, .sta, .absolute, .exact 4⟩,
   ⟨0x8E, .stx, .absolute, .exact 4⟩]

/-- Opcodes 0x90 to 0x9F. -/
def catalogRow9 : List CatalogRow :=
  [⟨0x90, .bcc, .relative, .branchDependent⟩, ⟨0x91, .sta, .indirectY, .exact 6⟩,
   ⟨0x94, .sty, .zeroPageX, .exact 4⟩, ⟨0x95, .sta, .zeroPageX, .exact 4⟩,
   ⟨0x96, .stx, .zeroPageY, .exact 4⟩, ⟨0x98, .tya, .implied, .exact 2⟩,
   ⟨0x99, .sta, .absoluteY, .exact 5⟩, ⟨0x9A, .txs, .implied, .exact 2⟩,
   ⟨0x9D, .sta, .absoluteX, .exact 5⟩]

/-- Opcodes 0xA0 to 0xAF. -/
def catalogRowA : List CatalogRow :=
  [⟨0xA0, .ldy, .immediate, .exact 2⟩, ⟨0xA1, .lda, .indirectX, .exact 6⟩,
   ⟨0xA2, .ldx, .immediate, .exact 2⟩, ⟨0xA4, .ldy, .zeroPage, .exact 3⟩,
   ⟨0xA5, .lda, .zeroPage, .exact 3⟩, ⟨0xA6, .ldx, .zeroPage, .exact 3⟩,
   ⟨0xA8, .tay, .implied, .exact 2⟩, ⟨0xA9, .lda, .immediate, .exact 2⟩,
   ⟨0xAA, .tax, .implied, .exact 2⟩, ⟨0xAC, .ldy, .absolute, .exact 4⟩,
   ⟨0xAD, .lda, .absolute, .exact 4⟩, ⟨0xAE, .ldx, .absolute, .exact 4⟩]

/-- Opcodes 0xB0 to 0xBF. -/
def catalogRowB : List CatalogRow :=
  [⟨0xB0, .bcs, .relative, .branchDependent⟩, ⟨0xB1, .lda, .indirectY, .exactPlusPageCross 5⟩,
   ⟨0xB4, .ldy, .zeroPageX, .exact 4⟩, ⟨0xB5, .lda, .zeroPageX, .exact 4⟩,
   ⟨0xB6, .ldx, .zeroPageY, .exact 4⟩, ⟨0xB8, .clv, .implied, .exact 2⟩,
   ⟨0xB9, .lda, .absoluteY, .exactPlusPageCross 4⟩, ⟨0xBA, .tsx, .implied, .exact 2⟩,
   ⟨0xBC, .ldy, .absoluteX, .exactPlusPageCross 4⟩, ⟨0xBD, .lda, .absoluteX, .exactPlusPageCross 4⟩,
   ⟨0xBE, .ldx, .absoluteY, .exactPlusPageCross 4⟩]

/-- Opcodes 0xC0 to 0xCF. -/
def catalogRowC : List CatalogRow :=
  [⟨0xC0, .cpy, .immediate, .exact 2⟩, ⟨0xC1, .cmp, .indirectX, .exact 6⟩,
   ⟨0xC4, .cpy, .zeroPage, .exact 3⟩, ⟨0xC5, .cmp, .zeroPage, .exact 3⟩,
   ⟨0xC6, .dec, .zeroPage, .exact 5⟩, ⟨0xC8, .iny, .implied, .exact 2⟩,
   ⟨0xC9, .cmp, .immediate, .exact 2⟩, ⟨0xCA, .dex, .implied, .exact 2⟩,
   ⟨0xCC, .cpy, .absolute, .exact 4⟩, ⟨0xCD, .cmp, .absolute, .exact 4⟩,
   ⟨0xCE, .dec, .absolute, .exact 6⟩]

/-- Opcodes 0xD0 to 0xDF. -/
def catalogRowD : List CatalogRow :=
  [⟨0xD0, .bne, .relative, .branchDependent⟩, ⟨0xD1, .cmp, .indirectY, .exactPlusPageCross 5⟩,
   ⟨0xD5, .cmp, .zeroPageX, .exact 4⟩, ⟨0xD6, .dec, .zeroPageX, .exact 6⟩,
   ⟨0xD8, .cld, .implied, .exact 2⟩, ⟨0xD9, .cmp, .absoluteY, .exactPlusPageCross 4⟩,
   ⟨0xDD, .cmp, .absoluteX, .exactPlusPageCross 4⟩, ⟨0xDE, .dec, .absoluteX, .exact 7⟩]

/-- Opcodes 0xE0 to 0xEF. -/
def catalogRowE : List CatalogRow :=
  [⟨0xE0, .cpx, .immediate, .exact 2⟩, ⟨0xE4, .cpx, .zeroPage, .exact 3⟩,
   ⟨0xE6, .inc, .zeroPage, .exact 5⟩, ⟨0xE8, .inx, .implied, .exact 2⟩,
   ⟨0xEA, .nop, .implied, .exact 2⟩, ⟨0xEC, .cpx, .absolute, .exact 4⟩,
   ⟨0xEE, .inc, .absolute, .exact 6⟩]

/-- Opcodes 0xF0 to 0xFF. -/
def catalogRowF : List CatalogRow :=
  [⟨0xF0, .beq, .relative, .branchDependent⟩, ⟨0xF6, .inc, .zeroPageX, .exact 6⟩,
   ⟨0xF8, .sed, .implied, .exact 2⟩, ⟨0xFE, .inc, .absoluteX, .exact 7⟩]

/-- The default catalog: 92 defined opcodes; the other 164 bytes are absent, hence undefined (R100, R101). -/
def defaultCatalog : List CatalogRow :=
  catalogRow0 ++ catalogRow1 ++ catalogRow2 ++ catalogRow3 ++
  catalogRow4 ++ catalogRow5 ++ catalogRow6 ++ catalogRow7 ++
  catalogRow8 ++ catalogRow9 ++ catalogRowA ++ catalogRowB ++
  catalogRowC ++ catalogRowD ++ catalogRowE ++ catalogRowF

/-- The default parameters (R6). -/
def Config.default : Config where
  catalog := defaultCatalog
  indxDeref := false
  jmpIndPageWrap := false
  plpStubVerbatim := false
  loadOverrun := .refuse

/-- Catalog lookup by opcode byte: the entry, or none for the undefined sentinel (R81). -/
def lookup (cat : List CatalogRow) (op : Byte) : Option CatalogRow :=
  cat.find? fun r => r.opcode == op

/-! ## Operand bytes and lengths -/

/-- `hi:lo`, the 16-bit value `hi * 256 + lo` (R7). -/
def hiLo (hi lo : Byte) : Addr := BitVec.ofNat 16 (hi.toNat * 256 + lo.toNat)

/-- Bits 15:8. -/
def highByte (w : Addr) : Byte := BitVec.ofNat 8 (w.toNat / 256)

/-- Bits 7:0. -/
def lowByte (w : Addr) : Byte := BitVec.ofNat 8 w.toNat

/-- Operand bytes per mode (R83). -/
def AddrMode.operandBytes : AddrMode → Nat
  | .implied => 0
  | .accumulator => 0
  | .immediate => 1
  | .zeroPage => 1
  | .zeroPageX => 1
  | .zeroPageY => 1
  | .relative => 1
  | .absolute => 2
  | .absoluteX => 2
  | .absoluteY => 2
  | .indirect => 2
  | .indirectX => 1
  | .indirectY => 1

/-- The form a mode makes of the two bytes after the opcode; a mode takes as many of them as R83 says, a two-byte operand
little-endian (R53, R82). -/
def AddrMode.form (m : AddrMode) (b1 b2 : Byte) : Form :=
  match m with
  | .implied => .implied
  | .accumulator => .accumulator
  | .immediate => .immediate b1
  | .zeroPage => .zeroPage b1
  | .zeroPageX => .zeroPageX b1
  | .zeroPageY => .zeroPageY b1
  | .relative => .relative b1
  | .absolute => .absolute (hiLo b2 b1)
  | .absoluteX => .absoluteX (hiLo b2 b1)
  | .absoluteY => .absoluteY (hiLo b2 b1)
  | .indirect => .indirect (hiLo b2 b1)
  | .indirectX => .indirectX b1
  | .indirectY => .indirectY b1

/-- The instruction length of a form: the opcode byte and the operand bytes (R83). -/
def Form.length (f : Form) : Nat := 1 + f.mode.operandBytes

/-- The instruction length (R83); an undefined opcode is one byte, no operand byte being fetched (R101). -/
def Instr.length (i : Instr) : Nat := i.form.length

/-! ## The decoder -/

/-- The instruction whose opcode byte is `op`, with `b1` and `b2` the bytes after it (R80): total over every byte. -/
def decodeBytes (cat : List CatalogRow) (op b1 b2 : Byte) : Instr :=
  match lookup cat op with
  | none => .undefined op
  | some r => r.operation.instr (r.mode.form b1 b2)

/-- Why a sequence of bytes holds no instruction; a step decodes from memory and meets neither (notes/assumptions/27.md). -/
inductive DecodeError where
  /-- There is no byte at all. -/
  | noOpcodeByte
  /-- The opcode is defined and its operand bytes are missing. -/
  | operandBytesMissing (op : Byte)
deriving DecidableEq, Repr

/-- Decoding from a sequence of bytes under a catalog: the instruction and the bytes after it. -/
def decodeWith (cat : List CatalogRow) (bytes : List Byte) : Except DecodeError (Instr × List Byte) :=
  match bytes with
  | [] => .error .noOpcodeByte
  | op :: rest =>
    match lookup cat op with
    | none => .ok (.undefined op, rest)
    | some r =>
      if r.mode.operandBytes ≤ rest.length then
        .ok (r.operation.instr (r.mode.form (rest.getD 0 0) (rest.getD 1 0)), rest.drop r.mode.operandBytes)
      else .error (.operandBytesMissing op)

/-- Decoding under the default catalog. -/
def decode (bytes : List Byte) : Except DecodeError (Instr × List Byte) := decodeWith defaultCatalog bytes

/-- The first three bytes, lowest address first, of an instruction given as a number of `nbits` bits whose bit 0 is bit 0
of the opcode byte. -/
def tableBytes (nbits w : Nat) : List Byte :=
  let v := w % 2 ^ nbits
  [BitVec.ofNat 8 v, BitVec.ofNat 8 (v >>> 8), BitVec.ofNat 8 (v >>> 16)]

/-- The instruction the decoder reads from a row of spec/opcode_table.json, its bits numbered as the table numbers them. -/
def decodeTableWord (nbits w : Nat) : Option Instr :=
  match decode (tableBytes nbits w) with
  | .ok (i, _) => some i
  | .error _ => none

/-! ## The encoder -/

/-- The operand bytes of a form, in the order they stand in memory (R53, R82). -/
def Form.bytes : Form → List Byte
  | .implied => []
  | .accumulator => []
  | .immediate c => [c]
  | .zeroPage b => [b]
  | .zeroPageX b => [b]
  | .zeroPageY b => [b]
  | .relative b => [b]
  | .absolute w => [lowByte w, highByte w]
  | .absoluteX w => [lowByte w, highByte w]
  | .absoluteY w => [lowByte w, highByte w]
  | .indirect w => [lowByte w, highByte w]
  | .indirectX b => [b]
  | .indirectY b => [b]

/-- The opcode byte of an operation at a mode in the default catalog. -/
def opcodeOf (o : Operation) (m : AddrMode) : Option Byte :=
  (defaultCatalog.find? fun r => r.operation == o && r.mode == m).map (·.opcode)

/-- The bytes of an operation at a form: the opcode byte, then the operand bytes; none where the catalog has no such
opcode. -/
def encodeOperation (o : Operation) (f : Form) : List Byte :=
  match opcodeOf o f.mode with
  | none => []
  | some op => op :: f.bytes

/-- The bytes of a well-formed instruction, lowest address first; an ill-formed one has none. -/
def encode (i : Instr) : List Byte :=
  match i with
  | .undefined op => [op]
  | i =>
    match i.operation with
    | none => []
    | some o => encodeOperation o i.form

end Sys2Proof
end

