-- ==== Sys2Proof/Machine/State.lean ====
section
/-! DEFINITION. The processor state (10_state.md R20), the reasons a step stops (R11, R281, R282) and the construct state
(R30). -/

namespace Sys2Proof.Machine

/-- The 64 KiB memory (R50), as the bytes that differ from what an unlisted address reads as: addresses strictly rising
and below 65536. -/
abbrev Memory := List Host.Cell

/-- What an address that is not listed reads as: construct zeroes memory, and a byte never written since reads 0x00
(R30, R59). -/
def Memory.unlisted : Byte := 0x00

/-- The processor state: exactly what R20 lists. -/
structure State where
  /-- Accumulator (R23). -/
  a : Byte
  /-- Index register X (R24). -/
  x : Byte
  /-- Index register Y (R25). -/
  y : Byte
  /-- Stack pointer, an offset into the stack page (R29). -/
  sp : Byte
  /-- Program counter (R27). -/
  pc : Addr
  /-- Status register (R31, R32). -/
  p : Byte
  /-- Memory (R50). -/
  mem : Memory
deriving DecidableEq, Repr

/-- Why a step faults. -/
inductive Fault where
  /-- Raised by every meaning when the operand's kind is not one its operation takes; `op` is the byte at `pc`. No state
  is written (R282). Safe: it cannot happen with the default catalog. -/
  | contractViolation (op : Byte) (pc : Addr)
deriving DecidableEq, Repr

/-- Why a step is refused. -/
inductive Refusal where
  /-- Raised by an arm of `exec` whose instruction has no meaning in this model. Safe. No arm raises it now. -/
  | notModelled (mnemonic : String)
  /-- Raised by the undefined sentinel: the opcode byte `op` at `pc` is undefined, no state changes and the next step at
  this state reports it again (R281). Safe: the spec gives it no effect. -/
  | undefinedOpcode (op : Byte) (pc : Addr)
deriving DecidableEq, Repr

/-- The three outcomes of a step (R11). -/
abbrev Result := Host.Outcome State Fault Refusal

/-- The construct state, the CORE's only reset (R30, R310). -/
def State.reset : State where
  a := 0x00
  x := 0x00
  y := 0x00
  sp := 0xFF
  pc := 0x0600
  p := 0x20
  mem := []

end Sys2Proof.Machine
end

