-- ==== Sys2Proof/Machine/Flags.lean ====
section
/-! DEFINITION. The status register's bits (R32) and every flag computation: SetZN (R10), Compare (R193), the shift's
carry (R180), and the byte pull status writes (R223). -/

namespace Sys2Proof.Machine

/-- The eight bits of P: seven flags and the stub (R31). -/
inductive StatusBit where
  | carry | zero | interruptMask | decimal | brk | stub | overflow | negative
deriving DecidableEq, Repr

/-- The position of a status bit in P (R32; D2, notes/assumptions/8.md). -/
def StatusBit.index : StatusBit → Nat
  | .carry => 0
  | .zero => 1
  | .interruptMask => 2
  | .decimal => 3
  | .brk => 4
  | .stub => 5
  | .overflow => 6
  | .negative => 7

/-- The byte with this bit alone. -/
def StatusBit.mask (b : StatusBit) : Byte := BitVec.twoPow 8 b.index

/-- A bit of a status byte. -/
def statusBit (p : Byte) (b : StatusBit) : Bool := p.getLsbD b.index

/-- Write one bit of a status byte and no other (R32). -/
def setStatusBit (p : Byte) (b : StatusBit) (v : Bool) : Byte :=
  if v then p ||| b.mask else p &&& ~~~b.mask

/-- SetZN (R10). -/
def setZN (v p : Byte) : Byte :=
  setStatusBit (setStatusBit p .zero (v == 0)) .negative v.msb

/-- The compare law (R193) for a register value `r` and an operand value `m`. -/
def compareFlags (r m p : Byte) : Byte :=
  let d := r - m
  setStatusBit (setStatusBit (setStatusBit p .carry (m.ule r)) .zero (r == m)) .negative d.msb

/-- The flags of shifting `v` left: C its old bit 7, then SetZN of the result (R180). -/
def shiftLeftFlags (v p : Byte) : Byte :=
  setZN (v <<< 1) (setStatusBit p .carry v.msb)

/-- The status that pull status makes of the pulled byte: verbatim, or with the stub bit kept 1 (R223, R34). -/
def pulledStatus (verbatim : Bool) (v : Byte) : Byte :=
  if verbatim then v else v ||| StatusBit.stub.mask

end Sys2Proof.Machine
end

