-- ==== Sys2Proof/Machine/Ops.lean ====
section
/-! DEFINITION. The named operations over memory and registers, instruction fetch, and the two exceptional outcomes.
The CORE has no trap entry and no trap return (R285, R286): an exceptional outcome is a report that writes nothing. -/

namespace Sys2Proof.Machine

/-! ## Memory (20_memory.md) -/

/-- The canonical form: addresses strictly rising and below 65536, and no entry equal to what an unlisted one reads. -/
abbrev Memory.wf (m : Memory) : Prop :=
  m.Pairwise (fun c d => c.1 < d.1) ∧ ∀ c ∈ m, c.2 ≠ Memory.unlisted ∧ c.1 < 65536

/-- The byte at an address given as a number. -/
def Memory.byteAt (m : Memory) (k : Nat) : Byte :=
  match m with
  | [] => Memory.unlisted
  | c :: m => if c.1 = k then c.2 else Memory.byteAt m k

/-- List a cell before the first cell of a higher or equal address. -/
def Memory.insertCell (m : Memory) (k : Nat) (v : Byte) : Memory :=
  match m with
  | [] => [(k, v)]
  | c :: m => if k ≤ c.1 then (k, v) :: c :: m else c :: Memory.insertCell m k v

/-- The memory with one byte replaced; a byte equal to what an unlisted address reads as is not listed. -/
def Memory.setByteAt (m : Memory) (k : Nat) (v : Byte) : Memory :=
  let others := m.filter fun c => c.1 != k
  if v = Memory.unlisted then others else Memory.insertCell others k v

/-- `MemRead(addr, 1)` (R9, R50). -/
def State.read (s : State) (addr : Addr) : Byte := s.mem.byteAt addr.toNat

/-- `MemWrite(addr, 1, v)` (R9, R50). -/
def State.write (s : State) (addr : Addr) (v : Byte) : State :=
  { s with mem := s.mem.setByteAt addr.toNat v }

/-- `Read16` (R54): the low byte at `addr`, the high byte at the next address, with a 16-bit carry. -/
def State.read16 (s : State) (addr : Addr) : Addr := hiLo (s.read (addr + 1)) (s.read addr)

/-- Store a byte sequence from an address on, every address modulo 65536 (R62). -/
def State.storeBytes (s : State) (addr : Addr) (bytes : List Byte) : State :=
  match bytes with
  | [] => s
  | b :: bytes => State.storeBytes (s.write addr b) (addr + 1) bytes

/-! ## Registers: the one place each is written -/

/-- A <- v. -/
def State.setA (s : State) (v : Byte) : State := { s with a := v }

/-- X <- v. -/
def State.setX (s : State) (v : Byte) : State := { s with x := v }

/-- Y <- v. -/
def State.setY (s : State) (v : Byte) : State := { s with y := v }

/-- SP <- v. -/
def State.setSP (s : State) (v : Byte) : State := { s with sp := v }

/-- PC <- w. -/
def State.setPC (s : State) (w : Addr) : State := { s with pc := w }

/-- P <- v. -/
def State.setP (s : State) (v : Byte) : State := { s with p := v }

/-- A bit of P. -/
def State.flag (s : State) (b : StatusBit) : Bool := statusBit s.p b

/-- Write one bit of P. -/
def State.setFlag (s : State) (b : StatusBit) (v : Bool) : State := s.setP (setStatusBit s.p b v)

/-- SetZN on the state (R10). -/
def State.setZN (s : State) (v : Byte) : State := s.setP (Machine.setZN v s.p)

/-- The advance of a non-control-flow instruction: PC <- (PC + len) mod 65536 (R28). -/
def State.advance (s : State) (len : Nat) : State := s.setPC (s.pc + BitVec.ofNat 16 len)

/-! ## The stack (R29, R55, R56) -/

/-- The stack byte that a stack pointer value addresses: 0x0100 + SP. -/
def stackAddr (sp : Byte) : Addr := 0x0100 + sp.setWidth 16

/-- `Push8` (R55): write, then decrement SP modulo 256. -/
def State.push8 (s : State) (v : Byte) : State := (s.write (stackAddr s.sp) v).setSP (s.sp - 1)

/-- `Pull8` (R55): increment SP modulo 256, then read. -/
def State.pull8 (s : State) : Byte × State :=
  let t := s.setSP (s.sp + 1)
  (t.read (stackAddr t.sp), t)

/-- `Push16` (R56): the high byte, then the low byte. -/
def State.push16 (s : State) (w : Addr) : State := (s.push8 (highByte w)).push8 (lowByte w)

/-- `Pull16` (R56): the low byte first, the second byte is the high half. -/
def State.pull16 (s : State) : Addr × State :=
  let (lo, t) := s.pull8
  let (hi, u) := t.pull8
  (hiLo hi lo, u)

/-! ## Fetch (R80, R84) -/

/-- The instruction at PC: the opcode byte there and the two bytes after it, modulo 65536, through a catalog. A byte the
mode does not take is not looked at (R101); a read has no side effect (R59). -/
def State.fetch (s : State) (cat : List CatalogRow) : Instr :=
  decodeBytes cat (s.read s.pc) (s.read (s.pc + 1)) (s.read (s.pc + 2))

/-! ## Exceptional outcomes (60_exceptions.md): reported, with no state written and PC where it was (R285) -/

/-- `raise UndefinedOpcode(op, pc0)` (R281). -/
def reportUndefined (op : Byte) (s : State) : Result := .refused (.undefinedOpcode op s.pc)

/-- `raise ContractViolation(op, pc0)` (R282): `op` is the opcode byte at PC. -/
def reportContractViolation (s : State) : Result := .fault (.contractViolation (s.read s.pc) s.pc)

end Sys2Proof.Machine
end

