-- ==== Sys2Proof/Machine/Operands.lean ====
section
/-! DEFINITION. The addressing-mode resolver: every operand form to its resolved operand (R85 to R98), and the kinds each
operation takes (R99). -/

namespace Sys2Proof.Machine

/-- The resolved operand (R85): `acc` is the accumulator as a location, `addr a` the memory byte M[a]. -/
inductive Operand where
  | none
  | acc
  | const (v : Byte)
  | addr (a : Addr)
deriving DecidableEq, Repr

/-- The kind of a resolved operand. -/
def Operand.kind : Operand → OperandKind
  | .none => .none
  | .acc => .acc
  | .const _ => .const
  | .addr _ => .addr

end Sys2Proof.Machine

namespace Sys2Proof

/-- The kind of operand each addressing mode resolves to (R86 to R98). -/
def AddrMode.kind : AddrMode → OperandKind
  | .implied => .none
  | .accumulator => .acc
  | .immediate => .const
  | .zeroPage => .addr
  | .zeroPageX => .addr
  | .zeroPageY => .addr
  | .relative => .addr
  | .absolute => .addr
  | .absoluteX => .addr
  | .absoluteY => .addr
  | .indirect => .addr
  | .indirectX => .addr
  | .indirectY => .addr

end Sys2Proof

namespace Sys2Proof.Machine

/-- `zext_16` (R7). -/
def zext16 (b : Byte) : Addr := b.setWidth 16

/-- `sext_16` (R7). -/
def sext16 (b : Byte) : Addr := b.signExtend 16

/-- A zero-page address with an index added modulo 256 (R90, R91). -/
def zeroPageIndexed (b index : Byte) : Addr := zext16 (b + index)

/-- The branch target (R92): the address after the two-byte instruction plus the signed displacement. -/
def branchTarget (pc : Addr) (b : Byte) : Addr := pc + 2 + sext16 b

/-- The Indirect pointer's contents (R96): `Read16`, or with `JMP_IND_PAGE_WRAP` the high byte from the start of the same
page. -/
def indirectTarget (pageWrap : Bool) (w : Addr) (s : State) : Addr :=
  if pageWrap then hiLo (s.read (hiLo (highByte w) (lowByte w + 1))) (s.read w) else s.read16 w

/-- The Indirect,X address (R97): the indexed zero-page address itself, or with `INDX_DEREF` the pointer there, fetched
with wrap within page 0. -/
def indirectXAddr (deref : Bool) (b : Byte) (s : State) : Addr :=
  if deref then hiLo (s.read (zext16 (b + s.x + 1))) (s.read (zext16 (b + s.x))) else zeroPageIndexed b s.x

/-- The Indirect,Y address (R98): the pointer at the zero-page byte, with no page-0 wrap, plus Y. -/
def indirectYAddr (b : Byte) (s : State) : Addr := s.read16 (zext16 b) + zext16 s.y

/-- `Resolve` (R86 to R98): reads memory and registers, writes nothing. -/
def resolve (cfg : Config) (f : Form) (s : State) : Operand :=
  match f with
  | .implied => .none
  | .accumulator => .acc
  | .immediate c => .const c
  | .zeroPage b => .addr (zext16 b)
  | .zeroPageX b => .addr (zeroPageIndexed b s.x)
  | .zeroPageY b => .addr (zeroPageIndexed b s.y)
  | .relative b => .addr (branchTarget s.pc b)
  | .absolute w => .addr w
  | .absoluteX w => .addr (w + zext16 s.x)
  | .absoluteY w => .addr (w + zext16 s.y)
  | .indirect w => .addr (indirectTarget cfg.jmpIndPageWrap w s)
  | .indirectX b => .addr (indirectXAddr cfg.indxDeref b s)
  | .indirectY b => .addr (indirectYAddr b s)

/-- The value of an operand that a load or a compare takes: the constant, or the memory byte (R120, R190). -/
def operandValue (o : Operand) (s : State) : Option Byte :=
  match o with
  | .const v => some v
  | .addr a => some (s.read a)
  | .none => none
  | .acc => none

/-- The operand kinds of the value-taking operations (R99). -/
def takesValue : OperandKind → Bool
  | .const => true
  | .addr => true
  | .none => false
  | .acc => false

/-- The operand kinds of the shift (R99). -/
def takesLocation : OperandKind → Bool
  | .acc => true
  | .addr => true
  | .none => false
  | .const => false

/-- `Accepts` (R99). -/
def accepts (o : Operation) (k : OperandKind) : Bool :=
  match o with
  | .lda => takesValue k
  | .ldx => takesValue k
  | .ldy => takesValue k
  | .sta => k == .addr
  | .stx => k == .addr
  | .sty => k == .addr
  | .tax => k == .none
  | .txa => k == .none
  | .tay => k == .none
  | .tya => k == .none
  | .tsx => k == .none
  | .txs => k == .none
  | .inc => k == .addr
  | .dec => k == .addr
  | .inx => k == .none
  | .iny => k == .none
  | .dex => k == .none
  | .dey => k == .none
  | .asl => takesLocation k
  | .cmp => takesValue k
  | .cpx => takesValue k
  | .cpy => takesValue k
  | .sec => k == .none
  | .clc => k == .none
  | .sei => k == .none
  | .cli => k == .none
  | .sed => k == .none
  | .cld => k == .none
  | .clv => k == .none
  | .pha => k == .none
  | .php => k == .none
  | .pla => k == .none
  | .plp => k == .none
  | .jmp => k == .addr
  | .jsr => k == .addr
  | .rts => k == .none
  | .bcc => k == .addr
  | .bcs => k == .addr
  | .bne => k == .addr
  | .beq => k == .addr
  | .bvc => k == .addr
  | .bvs => k == .addr
  | .bpl => k == .addr
  | .bmi => k == .addr
  | .nop => k == .none

/-- A handler: what an operation does with its resolved operand and the instruction's length (R80, `Execute`). -/
abbrev Handler := Operand → Nat → State → Result

/-- Resolve the operand form, then run a handler on it (R80). -/
def runForm (cfg : Config) (h : Handler) (f : Form) (s : State) : Result := h (resolve cfg f s) f.length s

end Sys2Proof.Machine
end

