-- ==== Sys2Proof/Machine/Handlers.lean ====
section
/-! DEFINITION. The shapes of handler that the families share. Each takes the operand kinds its operations accept, has its
effect and then advances PC by the length (R28); any other kind is a contract violation with nothing written (R282). -/

namespace Sys2Proof.Machine

/-- An operation with no operand whose effect is `effect`. -/
def impliedHandler (effect : State → State) : Handler := fun o len s =>
  match o with
  | .none => .next ((effect s).advance len)
  | _ => reportContractViolation s

/-- An operation on a constant or a memory byte: `effect` of the value. -/
def valueHandler (effect : Byte → State → State) : Handler := fun o len s =>
  match operandValue o s with
  | some v => .next ((effect v s).advance len)
  | none => reportContractViolation s

/-- An operation that stores a register's value at the operand address. -/
def storeHandler (value : State → Byte) : Handler := fun o len s =>
  match o with
  | .addr a => .next ((s.write a (value s)).advance len)
  | _ => reportContractViolation s

/-- A counter operation on a memory byte: read, compute, write back to the same address, SetZN of the result (R160). -/
def memoryCounterHandler (compute : Byte → Byte) : Handler := fun o len s =>
  match o with
  | .addr a => .next (((s.write a (compute (s.read a))).setZN (compute (s.read a))).advance len)
  | _ => reportContractViolation s

/-- A branch on a status bit (R240). -/
def branchHandler (b : StatusBit) (polarity : Bool) : Handler := fun o len s =>
  match o with
  | .addr t => .next (if s.flag b = polarity then s.setPC t else s.advance len)
  | _ => reportContractViolation s

end Sys2Proof.Machine
end

