-- ==== Sys2Proof/Machine/Compare.lean ====
section
/-! DEFINITION. Compare instructions (44_compare.md): flags by R193, nothing else written. -/

namespace Sys2Proof.Machine

/-- CMP on a resolved operand (R190). -/
def handleCmp : Handler := valueHandler fun m s => s.setP (compareFlags s.a m s.p)

/-- CMP: the meaning. -/
def execCmp (f : Form) (s : State) : Result := runForm Config.default handleCmp f s

/-- CPX on a resolved operand (R191). -/
def handleCpx : Handler := valueHandler fun m s => s.setP (compareFlags s.x m s.p)

/-- CPX: the meaning. -/
def execCpx (f : Form) (s : State) : Result := runForm Config.default handleCpx f s

/-- CPY on a resolved operand (R192). -/
def handleCpy : Handler := valueHandler fun m s => s.setP (compareFlags s.y m s.p)

/-- CPY: the meaning. -/
def execCpy (f : Form) (s : State) : Result := runForm Config.default handleCpy f s

end Sys2Proof.Machine
end

