-- ==== Sys2Proof/Machine/Control.lean ====
section
/-! DEFINITION. Control transfer instructions (47_control.md): PC is assigned, not advanced (R28). The flag of each branch is the spec's decision D3 (notes/assumptions/13.md). -/

namespace Sys2Proof.Machine

/-- JMP on a resolved operand (R241: PC <- t). -/
def handleJmp : Handler := fun o _len s =>
  match o with
  | .addr t => .next (s.setPC t)
  | _ => reportContractViolation s

/-- JMP: the meaning. -/
def execJmp (f : Form) (s : State) : Result := runForm Config.default handleJmp f s

/-- JSR on a resolved operand (R243: push the address of the call's last byte, then PC <- t). -/
def handleJsr : Handler := fun o len s =>
  match o with
  | .addr t => .next ((s.push16 (s.pc + BitVec.ofNat 16 len - 1)).setPC t)
  | _ => reportContractViolation s

/-- JSR: the meaning. -/
def execJsr (f : Form) (s : State) : Result := runForm Config.default handleJsr f s

/-- RTS on a resolved operand (R244: PC <- the pulled value + 1). -/
def handleRts : Handler := fun o _len s =>
  match o with
  | .none => .next (s.pull16.2.setPC (s.pull16.1 + 1))
  | _ => reportContractViolation s

/-- RTS: the meaning. -/
def execRts (f : Form) (s : State) : Result := runForm Config.default handleRts f s

/-- BCC on a resolved operand (R245). -/
def handleBcc : Handler := branchHandler .carry false

/-- BCC: the meaning. -/
def execBcc (f : Form) (s : State) : Result := runForm Config.default handleBcc f s

/-- BCS on a resolved operand (R246). -/
def handleBcs : Handler := branchHandler .carry true

/-- BCS: the meaning. -/
def execBcs (f : Form) (s : State) : Result := runForm Config.default handleBcs f s

/-- BNE on a resolved operand (R247). -/
def handleBne : Handler := branchHandler .zero false

/-- BNE: the meaning. -/
def execBne (f : Form) (s : State) : Result := runForm Config.default handleBne f s

/-- BEQ on a resolved operand (R248). -/
def handleBeq : Handler := branchHandler .zero true

/-- BEQ: the meaning. -/
def execBeq (f : Form) (s : State) : Result := runForm Config.default handleBeq f s

/-- BVC on a resolved operand (R249). -/
def handleBvc : Handler := branchHandler .overflow false

/-- BVC: the meaning. -/
def execBvc (f : Form) (s : State) : Result := runForm Config.default handleBvc f s

/-- BVS on a resolved operand (R250). -/
def handleBvs : Handler := branchHandler .overflow true

/-- BVS: the meaning. -/
def execBvs (f : Form) (s : State) : Result := runForm Config.default handleBvs f s

/-- BPL on a resolved operand (R251). -/
def handleBpl : Handler := branchHandler .negative false

/-- BPL: the meaning. -/
def execBpl (f : Form) (s : State) : Result := runForm Config.default handleBpl f s

/-- BMI on a resolved operand (R252). -/
def handleBmi : Handler := branchHandler .negative true

/-- BMI: the meaning. -/
def execBmi (f : Form) (s : State) : Result := runForm Config.default handleBmi f s

end Sys2Proof.Machine
end

