-- ==== Sys2Proof/Machine/FlagOps.lean ====
section
/-! DEFINITION. Flag set and clear instructions (45_flags.md): one flag each. There is no set-overflow (R207). -/

namespace Sys2Proof.Machine

/-- SEC on a resolved operand (R200). -/
def handleSec : Handler := impliedHandler fun s => s.setFlag .carry true

/-- SEC: the meaning. -/
def execSec (f : Form) (s : State) : Result := runForm Config.default handleSec f s

/-- CLC on a resolved operand (R201). -/
def handleClc : Handler := impliedHandler fun s => s.setFlag .carry false

/-- CLC: the meaning. -/
def execClc (f : Form) (s : State) : Result := runForm Config.default handleClc f s

/-- SEI on a resolved operand (R202). -/
def handleSei : Handler := impliedHandler fun s => s.setFlag .interruptMask true

/-- SEI: the meaning. -/
def execSei (f : Form) (s : State) : Result := runForm Config.default handleSei f s

/-- CLI on a resolved operand (R203). -/
def handleCli : Handler := impliedHandler fun s => s.setFlag .interruptMask false

/-- CLI: the meaning. -/
def execCli (f : Form) (s : State) : Result := runForm Config.default handleCli f s

/-- SED on a resolved operand (R204). -/
def handleSed : Handler := impliedHandler fun s => s.setFlag .decimal true

/-- SED: the meaning. -/
def execSed (f : Form) (s : State) : Result := runForm Config.default handleSed f s

/-- CLD on a resolved operand (R205). -/
def handleCld : Handler := impliedHandler fun s => s.setFlag .decimal false

/-- CLD: the meaning. -/
def execCld (f : Form) (s : State) : Result := runForm Config.default handleCld f s

/-- CLV on a resolved operand (R206). -/
def handleClv : Handler := impliedHandler fun s => s.setFlag .overflow false

/-- CLV: the meaning. -/
def execClv (f : Form) (s : State) : Result := runForm Config.default handleClv f s

end Sys2Proof.Machine
end

