-- ==== Sys2Proof/Machine/IncDec.lean ====
section
/-! DEFINITION. Increment and decrement instructions (42_inc_dec.md), modulo 256 (R164). -/

namespace Sys2Proof.Machine

/-- INC on a resolved operand (R160). -/
def handleInc : Handler := memoryCounterHandler fun v => v + 1

/-- INC: the meaning. -/
def execInc (f : Form) (s : State) : Result := runForm Config.default handleInc f s

/-- DEC on a resolved operand (R161). -/
def handleDec : Handler := memoryCounterHandler fun v => v - 1

/-- DEC: the meaning. -/
def execDec (f : Form) (s : State) : Result := runForm Config.default handleDec f s

/-- INX on a resolved operand (R162). -/
def handleInx : Handler := impliedHandler fun s => (s.setX (s.x + 1)).setZN (s.x + 1)

/-- INX: the meaning. -/
def execInx (f : Form) (s : State) : Result := runForm Config.default handleInx f s

/-- INY on a resolved operand (R163). -/
def handleIny : Handler := impliedHandler fun s => (s.setY (s.y + 1)).setZN (s.y + 1)

/-- INY: the meaning. -/
def execIny (f : Form) (s : State) : Result := runForm Config.default handleIny f s

/-- DEX on a resolved operand (R165). -/
def handleDex : Handler := impliedHandler fun s => (s.setX (s.x - 1)).setZN (s.x - 1)

/-- DEX: the meaning. -/
def execDex (f : Form) (s : State) : Result := runForm Config.default handleDex f s

/-- DEY on a resolved operand (R166). -/
def handleDey : Handler := impliedHandler fun s => (s.setY (s.y - 1)).setZN (s.y - 1)

/-- DEY: the meaning. -/
def execDey (f : Form) (s : State) : Result := runForm Config.default handleDey f s

end Sys2Proof.Machine
end

