-- ==== Sys2Proof/Machine/LoadStore.lean ====
section
/-! DEFINITION. Load and store instructions (40_load_store.md). -/

namespace Sys2Proof.Machine

/-- LDA on a resolved operand (R120: A <- v; SetZN(v)). -/
def handleLda : Handler := valueHandler fun v s => (s.setA v).setZN v

/-- LDA: the meaning. -/
def execLda (f : Form) (s : State) : Result := runForm Config.default handleLda f s

/-- LDX on a resolved operand (R121: X <- v; SetZN(v)). -/
def handleLdx : Handler := valueHandler fun v s => (s.setX v).setZN v

/-- LDX: the meaning. -/
def execLdx (f : Form) (s : State) : Result := runForm Config.default handleLdx f s

/-- LDY on a resolved operand (R122: Y <- v; SetZN(v)). -/
def handleLdy : Handler := valueHandler fun v s => (s.setY v).setZN v

/-- LDY: the meaning. -/
def execLdy (f : Form) (s : State) : Result := runForm Config.default handleLdy f s

/-- STA on a resolved operand (R123: no flag). -/
def handleSta : Handler := storeHandler State.a

/-- STA: the meaning. -/
def execSta (f : Form) (s : State) : Result := runForm Config.default handleSta f s

/-- STX on a resolved operand (R124: no flag). -/
def handleStx : Handler := storeHandler State.x

/-- STX: the meaning. -/
def execStx (f : Form) (s : State) : Result := runForm Config.default handleStx f s

/-- STY on a resolved operand (R125: no flag). -/
def handleSty : Handler := storeHandler State.y

/-- STY: the meaning. -/
def execSty (f : Form) (s : State) : Result := runForm Config.default handleSty f s

end Sys2Proof.Machine
end

