-- ==== Sys2Proof/Machine/Nop.lean ====
section
/-! DEFINITION. The no-operation instruction (48_nop.md) and the undefined sentinel (R281). -/

namespace Sys2Proof.Machine

/-- NOP on a resolved operand (R270). -/
def handleNop : Handler := impliedHandler fun s => s

/-- NOP: the meaning. -/
def execNop (f : Form) (s : State) : Result := runForm Config.default handleNop f s

/-- UNDEFINED: the step reports the opcode byte and its address, and writes nothing (R281). -/
def execUndefined (op : Byte) (s : State) : Result := reportUndefined op s

end Sys2Proof.Machine
end

