-- ==== Sys2Proof/Machine/Shift.lean ====
section
/-! DEFINITION. The shift instruction (43_shift.md). -/

namespace Sys2Proof.Machine

/-- ASL on a resolved operand (R180: shift the accumulator or a memory byte left and write it back where it came from). -/
def handleAsl : Handler := fun o len s =>
  match o with
  | .acc => .next (((s.setA (s.a <<< 1)).setP (shiftLeftFlags s.a s.p)).advance len)
  | .addr a => .next (((s.write a (s.read a <<< 1)).setP (shiftLeftFlags (s.read a) s.p)).advance len)
  | _ => reportContractViolation s

/-- ASL: the meaning. -/
def execAsl (f : Form) (s : State) : Result := runForm Config.default handleAsl f s

end Sys2Proof.Machine
end

