-- ==== Sys2Proof/Machine/Stack.lean ====
section
/-! DEFINITION. Stack instructions (46_stack.md). -/

namespace Sys2Proof.Machine

/-- PHA on a resolved operand (R220). -/
def handlePha : Handler := impliedHandler fun s => s.push8 s.a

/-- PHA: the meaning. -/
def execPha (f : Form) (s : State) : Result := runForm Config.default handlePha f s

/-- PHP on a resolved operand (R221: P as it stands, all eight bits; D13, notes/assumptions/11.md). -/
def handlePhp : Handler := impliedHandler fun s => s.push8 s.p

/-- PHP: the meaning. -/
def execPhp (f : Form) (s : State) : Result := runForm Config.default handlePhp f s

/-- PLA on a resolved operand (R222). -/
def handlePla : Handler := impliedHandler fun s => (s.pull8.2.setA s.pull8.1).setZN s.pull8.1

/-- PLA: the meaning. -/
def execPla (f : Form) (s : State) : Result := runForm Config.default handlePla f s

/-- PLP on a resolved operand (R223), under either value of `PLP_STUB_VERBATIM`. -/
def handlePlp (verbatim : Bool) : Handler :=
  impliedHandler fun s => s.pull8.2.setP (pulledStatus verbatim s.pull8.1)

/-- PLP: the meaning. -/
def execPlp (f : Form) (s : State) : Result :=
  runForm Config.default (handlePlp Config.default.plpStubVerbatim) f s

end Sys2Proof.Machine
end

