-- ==== Sys2Proof/Machine/Transfer.lean ====
section
/-! DEFINITION. Register transfer instructions (41_transfer.md). The two stack-pointer transfers write no flag (90_conflicts.md C6). -/

namespace Sys2Proof.Machine

/-- TAX on a resolved operand (R140: X <- A; SetZN(A)). -/
def handleTax : Handler := impliedHandler fun s => (s.setX s.a).setZN s.a

/-- TAX: the meaning. -/
def execTax (f : Form) (s : State) : Result := runForm Config.default handleTax f s

/-- TXA on a resolved operand (R141: A <- X; SetZN(X)). -/
def handleTxa : Handler := impliedHandler fun s => (s.setA s.x).setZN s.x

/-- TXA: the meaning. -/
def execTxa (f : Form) (s : State) : Result := runForm Config.default handleTxa f s

/-- TAY on a resolved operand (R142: Y <- A; SetZN(A)). -/
def handleTay : Handler := impliedHandler fun s => (s.setY s.a).setZN s.a

/-- TAY: the meaning. -/
def execTay (f : Form) (s : State) : Result := runForm Config.default handleTay f s

/-- TYA on a resolved operand (R143: A <- Y; SetZN(Y)). -/
def handleTya : Handler := impliedHandler fun s => (s.setA s.y).setZN s.y

/-- TYA: the meaning. -/
def execTya (f : Form) (s : State) : Result := runForm Config.default handleTya f s

/-- TSX on a resolved operand (R144: X <- SP, no flag). -/
def handleTsx : Handler := impliedHandler fun s => s.setX s.sp

/-- TSX: the meaning. -/
def execTsx (f : Form) (s : State) : Result := runForm Config.default handleTsx f s

/-- TXS on a resolved operand (R145: SP <- X, no flag). -/
def handleTxs : Handler := impliedHandler fun s => s.setSP s.x

/-- TXS: the meaning. -/
def execTxs (f : Form) (s : State) : Result := runForm Config.default handleTxs f s

end Sys2Proof.Machine
end

