-- ==== Sys2Proof/Machine/Dispatch.lean ====
section
/-! DEFINITION. One arm per instruction: a direct call of its meaning. -/

namespace Sys2Proof.Machine

def exec (i : Instr) (s : State) : Host.Outcome State Fault Refusal :=
  match i with
  | .lda f => Sys2Proof.Machine.execLda f s
  | .ldx f => Sys2Proof.Machine.execLdx f s
  | .ldy f => Sys2Proof.Machine.execLdy f s
  | .sta f => Sys2Proof.Machine.execSta f s
  | .stx f => Sys2Proof.Machine.execStx f s
  | .sty f => Sys2Proof.Machine.execSty f s
  | .tax f => Sys2Proof.Machine.execTax f s
  | .txa f => Sys2Proof.Machine.execTxa f s
  | .tay f => Sys2Proof.Machine.execTay f s
  | .tya f => Sys2Proof.Machine.execTya f s
  | .tsx f => Sys2Proof.Machine.execTsx f s
  | .txs f => Sys2Proof.Machine.execTxs f s
  | .inc f => Sys2Proof.Machine.execInc f s
  | .dec f => Sys2Proof.Machine.execDec f s
  | .inx f => Sys2Proof.Machine.execInx f s
  | .iny f => Sys2Proof.Machine.execIny f s
  | .dex f => Sys2Proof.Machine.execDex f s
  | .dey f => Sys2Proof.Machine.execDey f s
  | .asl f => Sys2Proof.Machine.execAsl f s
  | .cmp f => Sys2Proof.Machine.execCmp f s
  | .cpx f => Sys2Proof.Machine.execCpx f s
  | .cpy f => Sys2Proof.Machine.execCpy f s
  | .sec f => Sys2Proof.Machine.execSec f s
  | .clc f => Sys2Proof.Machine.execClc f s
  | .sei f => Sys2Proof.Machine.execSei f s
  | .cli f => Sys2Proof.Machine.execCli f s
  | .sed f => Sys2Proof.Machine.execSed f s
  | .cld f => Sys2Proof.Machine.execCld f s
  | .clv f => Sys2Proof.Machine.execClv f s
  | .pha f => Sys2Proof.Machine.execPha f s
  | .php f => Sys2Proof.Machine.execPhp f s
  | .pla f => Sys2Proof.Machine.execPla f s
  | .plp f => Sys2Proof.Machine.execPlp f s
  | .jmp f => Sys2Proof.Machine.execJmp f s
  | .jsr f => Sys2Proof.Machine.execJsr f s
  | .rts f => Sys2Proof.Machine.execRts f s
  | .bcc f => Sys2Proof.Machine.execBcc f s
  | .bcs f => Sys2Proof.Machine.execBcs f s
  | .bne f => Sys2Proof.Machine.execBne f s
  | .beq f => Sys2Proof.Machine.execBeq f s
  | .bvc f => Sys2Proof.Machine.execBvc f s
  | .bvs f => Sys2Proof.Machine.execBvs f s
  | .bpl f => Sys2Proof.Machine.execBpl f s
  | .bmi f => Sys2Proof.Machine.execBmi f s
  | .nop f => Sys2Proof.Machine.execNop f s
  | .undefined op => Sys2Proof.Machine.execUndefined op s

end Sys2Proof.Machine
end

