-- ==== Sys2Proof/Machine/Step.lean ====
section
/-! DEFINITION. The step (R80, R312): fetch at PC, decode, execute, advance, as one transition. -/

namespace Sys2Proof.Machine

/-- One step under the default parameters. -/
def step (s : State) : Host.Outcome State Fault Refusal := exec (s.fetch defaultCatalog) s

/-- The state with an instruction's bytes stored where the next step fetches: at PC and the two addresses after it, the
first byte at PC (R80, R84). -/
def State.withFetchWord (s : State) (nbits w : Nat) : State := s.storeBytes s.pc (tableBytes nbits w)

end Sys2Proof.Machine
end

