-- ==== Sys2Proof/Machine/Engine.lean ====
section
/-! DEFINITION. The engine over any parameters (R6, R80): `exec` and `step` are this at the defaults. -/

namespace Sys2Proof.Machine

/-- The handler of each instruction (R80, `Execute`); only pull status reads a parameter. -/
def handlerOf (cfg : Config) (i : Instr) : Handler :=
  match i with
  | .lda _ => handleLda
  | .ldx _ => handleLdx
  | .ldy _ => handleLdy
  | .sta _ => handleSta
  | .stx _ => handleStx
  | .sty _ => handleSty
  | .tax _ => handleTax
  | .txa _ => handleTxa
  | .tay _ => handleTay
  | .tya _ => handleTya
  | .tsx _ => handleTsx
  | .txs _ => handleTxs
  | .inc _ => handleInc
  | .dec _ => handleDec
  | .inx _ => handleInx
  | .iny _ => handleIny
  | .dex _ => handleDex
  | .dey _ => handleDey
  | .asl _ => handleAsl
  | .cmp _ => handleCmp
  | .cpx _ => handleCpx
  | .cpy _ => handleCpy
  | .sec _ => handleSec
  | .clc _ => handleClc
  | .sei _ => handleSei
  | .cli _ => handleCli
  | .sed _ => handleSed
  | .cld _ => handleCld
  | .clv _ => handleClv
  | .pha _ => handlePha
  | .php _ => handlePhp
  | .pla _ => handlePla
  | .plp _ => handlePlp cfg.plpStubVerbatim
  | .jmp _ => handleJmp
  | .jsr _ => handleJsr
  | .rts _ => handleRts
  | .bcc _ => handleBcc
  | .bcs _ => handleBcs
  | .bne _ => handleBne
  | .beq _ => handleBeq
  | .bvc _ => handleBvc
  | .bvs _ => handleBvs
  | .bpl _ => handleBpl
  | .bmi _ => handleBmi
  | .nop _ => handleNop
  | .undefined op => fun _ _ s => reportUndefined op s

/-- Run an instruction under any parameters. -/
def execWith (cfg : Config) (i : Instr) (s : State) : Result := runForm cfg (handlerOf cfg i) i.form s

/-- One step under any parameters, catalog included (R80, R312). -/
def stepWith (cfg : Config) (s : State) : Result := execWith cfg (s.fetch cfg.catalog) s

end Sys2Proof.Machine
end

