-- ==== Sys2Proof/Machine/HostInterface.lean ====
section
/-! DEFINITION. The host's four commands (R39, R310 to R313), each performed between two steps. -/

namespace Sys2Proof.Machine

/-- What the host may ask (R39). `inspect` names the memory byte it wants to see. -/
inductive Command where
  | construct
  | load (addr : Addr) (bytes : List Byte)
  | step
  | inspect (addr : Addr)
deriving DecidableEq, Repr

/-- What Inspect reads: every register, every bit of P, and one memory byte (R313). -/
structure View where
  a : Byte
  x : Byte
  y : Byte
  sp : Byte
  pc : Addr
  p : Byte
  carry : Bool
  zero : Bool
  interruptMask : Bool
  decimal : Bool
  brk : Bool
  overflow : Bool
  negative : Bool
  byte : Byte
deriving DecidableEq, Repr

/-- What the host is told. -/
inductive Reply where
  | ok
  | loadRefused
  | stopped (r : Refusal)
  | faulted (r : Fault)
  | view (v : View)
deriving DecidableEq, Repr

/-- The number of a step's outcome: Ok 0, UndefinedOpcode 1, ContractViolation 2 (D10, notes/assumptions/21.md). -/
def outcomeCode (r : Result) : Nat :=
  match r with
  | .next _ => 0
  | .refused _ => 1
  | .fault _ => 2

/-- `Inspect` (R313). -/
def inspect (s : State) (addr : Addr) : View where
  a := s.a
  x := s.x
  y := s.y
  sp := s.sp
  pc := s.pc
  p := s.p
  carry := s.flag .carry
  zero := s.flag .zero
  interruptMask := s.flag .interruptMask
  decimal := s.flag .decimal
  brk := s.flag .brk
  overflow := s.flag .overflow
  negative := s.flag .negative
  byte := s.read addr

/-- `Load(addr, bytes)` (R311): one that would run past 0xFFFF is refused whole, wraps to 0x0000, or is cut off at 0xFFFF,
as `LOAD_OVERRUN` says (D19, notes/assumptions/7.md). -/
def load (policy : LoadOverrun) (addr : Addr) (bytes : List Byte) (s : State) : Option State :=
  if addr.toNat + bytes.length ≤ 65536 then some (s.storeBytes addr bytes)
  else
    match policy with
    | .refuse => none
    | .wrap => some (s.storeBytes addr bytes)
    | .truncate => some (s.storeBytes addr (bytes.take (65536 - addr.toNat)))

/-- A command's reply and the state after it. A step that does not end Ok leaves the state as it was (R285). -/
def perform (cfg : Config) (c : Command) (s : State) : Reply × State :=
  match c with
  | .construct => (.ok, State.reset)
  | .load addr bytes =>
    match load cfg.loadOverrun addr bytes s with
    | some t => (.ok, t)
    | none => (.loadRefused, s)
  | .step =>
    match stepWith cfg s with
    | .next t => (.ok, t)
    | .refused r => (.stopped r, s)
    | .fault r => (.faulted r, s)
  | .inspect addr => (.view (inspect s addr), s)

/-- The states a host can bring about from construct under some parameters, by any commands in any order. -/
inductive Reachable (cfg : Config) : State → Prop where
  | construct : Reachable cfg State.reset
  | perform (c : Command) {s : State} (h : Reachable cfg s) : Reachable cfg (perform cfg c s).2

end Sys2Proof.Machine
end

