-- ==== Sys2Proof/Safety.lean ====
section
/-! DEFINITION. What a good state and a safe run are, in the terms the statements use. -/

namespace Sys2Proof.Machine

/-- The invariant of the CORE under the default parameters: memory in its canonical form and the stub bit 1 (R34). -/
structure State.Inv (s : State) : Prop where
  mem : s.mem.wf
  stub : s.flag .stub = true

/-- A state whose next step reports UndefinedOpcode (R315). -/
def Stopped (s : State) : Prop := step s = .refused (.undefinedOpcode (s.read s.pc) s.pc)

/-- A step that has an effect: it ends in a next state. -/
def Runs (s : State) : Prop := ∃ t, step s = .next t

/-- The status byte `q` is `p` with exactly the listed bits given these values: every bit not listed is as it was. -/
def StatusAfter (p q : Byte) (written : List (StatusBit × Bool)) : Prop :=
  ∀ b, statusBit q b = (written.lookup b).getD (statusBit p b)

/-- The memory `m` is that of `s` with exactly the byte at `k` replaced by `v`. -/
def OneByteStored (s : State) (m : Memory) (k : Addr) (v : Byte) : Prop :=
  ∀ j : Addr, m.byteAt j.toNat = if j = k then v else s.read j

/-- The operand of `f` in `s` is the value `v`: the constant itself, or the memory byte at the operand address (R120). -/
def OperandIs (f : Form) (s : State) (v : Byte) : Prop :=
  resolve Config.default f s = .const v ∨ ∃ k, resolve Config.default f s = .addr k ∧ s.read k = v

/-- The operand of `f` in `s` is the memory byte at `k`. -/
def OperandAt (f : Form) (s : State) (k : Addr) : Prop := resolve Config.default f s = .addr k

/-- PC after the instruction of form `f` at PC (R28). -/
def State.pcAfter (s : State) (f : Form) : Addr := s.pc + BitVec.ofNat 16 f.length

/-- The outcome of a step with its next state changed by `g`: for comparing two runs that differ in one part. -/
def Result.mapNext (g : State → State) (r : Result) : Result :=
  match r with
  | .next t => .next (g t)
  | .fault e => .fault e
  | .refused e => .refused e

/-- A part of the state that an instruction does not read has no say in its outcome: changing it with `change` beforehand
gives the same outcome if the instruction writes that part, else the same outcome with that change. -/
def Ignores (i : Instr) (s : State) (writes : Prop) (change : State → State) : Prop :=
  (writes → exec i (change s) = exec i s) ∧ (¬ writes → exec i (change s) = Result.mapNext change (exec i s))

/-- An instruction writes a part of the state: in some good state it changes that part. -/
def Writes {α : Type} (i : Instr) (part : State → α) : Prop := ∃ s t, s.Inv ∧ exec i s = .next t ∧ part t ≠ part s

/-- An instruction reads a part of the state: in some good state its outcome depends on the value there. -/
def Reads {α : Type} (i : Instr) (writes : Prop) (change : α → State → State) : Prop :=
  ∃ s v, s.Inv ∧ ¬ Ignores i s writes (change v)

/-- The operation of `i` is one of `os`. -/
def OneOf (os : List Operation) (i : Instr) : Prop := ∃ o ∈ os, i.operation = some o

/-- The Encoding lines of the operations' own rules (R120 to R270): operation, mode, opcode byte. -/
def encodingLines : List (Operation × AddrMode × Byte) :=
  List.flatten [
    [(.lda, .immediate, 0xA9), (.lda, .zeroPage, 0xA5), (.lda, .zeroPageX, 0xB5), (.lda, .absolute, 0xAD),
     (.lda, .absoluteX, 0xBD), (.lda, .absoluteY, 0xB9), (.lda, .indirectX, 0xA1), (.lda, .indirectY, 0xB1)],
    [(.ldx, .immediate, 0xA2), (.ldx, .zeroPage, 0xA6), (.ldx, .zeroPageY, 0xB6), (.ldx, .absolute, 0xAE),
     (.ldx, .absoluteY, 0xBE), (.ldy, .immediate, 0xA0), (.ldy, .zeroPage, 0xA4), (.ldy, .zeroPageX, 0xB4),
     (.ldy, .absolute, 0xAC), (.ldy, .absoluteX, 0xBC)],
    [(.sta, .zeroPage, 0x85), (.sta, .zeroPageX, 0x95), (.sta, .absolute, 0x8D), (.sta, .absoluteX, 0x9D),
     (.sta, .absoluteY, 0x99), (.sta, .indirectX, 0x81), (.sta, .indirectY, 0x91)],
    [(.stx, .zeroPage, 0x86), (.stx, .zeroPageY, 0x96), (.stx, .absolute, 0x8E), (.sty, .zeroPage, 0x84),
     (.sty, .zeroPageX, 0x94), (.sty, .absolute, 0x8C)],
    [(.tax, .implied, 0xAA), (.txa, .implied, 0x8A), (.tay, .implied, 0xA8), (.tya, .implied, 0x98),
     (.tsx, .implied, 0xBA), (.txs, .implied, 0x9A)],
    [(.inc, .zeroPage, 0xE6), (.inc, .zeroPageX, 0xF6), (.inc, .absolute, 0xEE), (.inc, .absoluteX, 0xFE),
     (.dec, .zeroPage, 0xC6), (.dec, .zeroPageX, 0xD6), (.dec, .absolute, 0xCE), (.dec, .absoluteX, 0xDE)],
    [(.inx, .implied, 0xE8), (.iny, .implied, 0xC8), (.dex, .implied, 0xCA), (.dey, .implied, 0x88)],
    [(.asl, .accumulator, 0x0A), (.asl, .zeroPage, 0x06), (.asl, .zeroPageX, 0x16), (.asl, .absolute, 0x0E),
     (.asl, .absoluteX, 0x1E)],
    [(.cmp, .immediate, 0xC9), (.cmp, .zeroPage, 0xC5), (.cmp, .zeroPageX, 0xD5), (.cmp, .absolute, 0xCD),
     (.cmp, .absoluteX, 0xDD), (.cmp, .absoluteY, 0xD9), (.cmp, .indirectX, 0xC1), (.cmp, .indirectY, 0xD1)],
    [(.cpx, .immediate, 0xE0), (.cpx, .zeroPage, 0xE4), (.cpx, .absolute, 0xEC), (.cpy, .immediate, 0xC0),
     (.cpy, .zeroPage, 0xC4), (.cpy, .absolute, 0xCC)],
    [(.sec, .implied, 0x38), (.clc, .implied, 0x18), (.sei, .implied, 0x78), (.cli, .implied, 0x58),
     (.sed, .implied, 0xF8), (.cld, .implied, 0xD8), (.clv, .implied, 0xB8)],
    [(.pha, .implied, 0x48), (.php, .implied, 0x08), (.pla, .implied, 0x68), (.plp, .implied, 0x28)],
    [(.jmp, .absolute, 0x4C), (.jmp, .indirect, 0x6C), (.jsr, .absolute, 0x20), (.rts, .implied, 0x60)],
    [(.bcc, .relative, 0x90), (.bcs, .relative, 0xB0), (.bne, .relative, 0xD0), (.beq, .relative, 0xF0),
     (.bvc, .relative, 0x50), (.bvs, .relative, 0x70), (.bpl, .relative, 0x10), (.bmi, .relative, 0x30)],
    [(.nop, .implied, 0xEA)]]

/-- The operations that R33's table lists as writing each bit of P; pull status writes the stub, as 1. -/
def StatusBit.writers : StatusBit → List Operation
  | .carry => [.asl, .cmp, .cpx, .cpy, .sec, .clc, .plp]
  | .zero => [.lda, .ldx, .ldy, .tax, .txa, .tay, .tya, .inc, .dec, .inx, .iny, .dex,
      .dey, .asl, .pla, .cmp, .cpx, .cpy, .plp]
  | .interruptMask => [.sei, .cli, .plp]
  | .decimal => [.sed, .cld, .plp]
  | .brk => [.plp]
  | .stub => [.plp]
  | .overflow => [.clv, .plp]
  | .negative => [.lda, .ldx, .ldy, .tax, .txa, .tay, .tya, .inc, .dec, .inx, .iny, .dex,
      .dey, .asl, .pla, .cmp, .cpx, .cpy, .plp]

/-- The operations that R33's table lists as reading each bit of P. -/
def StatusBit.readers : StatusBit → List Operation
  | .carry => [.bcc, .bcs, .php]
  | .zero => [.bne, .beq, .php]
  | .interruptMask => [.php]
  | .decimal => [.php]
  | .brk => [.php]
  | .stub => [.php]
  | .overflow => [.bvc, .bvs, .php]
  | .negative => [.bpl, .bmi, .php]

end Sys2Proof.Machine
end

