-- ==== Sys2Proof/Certificates/Slice0/Obligations.lean ====
section
/-! DEFINITION. The statements about the machine, for the provers. -/

open Sys2Proof Sys2Proof.Machine

/-- The state after Construct has PC = 0x0600, SP = 0xFF, A = X = Y = 0, P = 0x20 (the stub bit 1, each of the seven
flags 0) and every memory byte 0, under any parameters and from any state. That P reads 0x20 as a byte rests on the
spec's decision D2 (log entry 8). (Derived from 10_state.md section 5, 70_reset_and_hazards.md section 1,
92_eei_decisions.md D2.) -/
def Obligations.ConstructSetsTheResetState : Prop :=
  ∀ (cfg : Config) (s : State), (perform cfg .construct s).2 = State.reset ∧
    State.reset.pc = 0x0600 ∧ State.reset.sp = 0xFF ∧ State.reset.a = 0 ∧ State.reset.x = 0 ∧ State.reset.y = 0 ∧
    State.reset.p = 0x20 ∧ (∀ b, State.reset.flag b = decide (b = .stub)) ∧ ∀ k, State.reset.read k = 0

/-- When the bytes in memory from PC on (any number of them, addresses modulo 65536) decode to an instruction, the
step at that state is exec of that instruction at that state, with nothing added around it. (Derived from
30_encoding.md section 1, 92_eei_decisions.md D9.) -/
def Obligations.StepRunsTheDecodedInstruction : Prop :=
  ∀ (s : State) (n : Nat) (i : Instr) (rest : List Byte),
    decode ((List.range n).map fun k => s.read (s.pc + BitVec.ofNat 16 k)) = .ok (i, rest) → step s = exec i s

/-- Under any parameters: if the catalog has no entry for the byte at PC, the step reports UndefinedOpcode with that
byte and PC; if it has one, the operand form is made of the bytes at PC+1 and PC+2, resolved, and if its kind is not
accepted the step reports ContractViolation with the opcode byte and PC, and otherwise the step is the operation's
handler on the resolved operand with length 1 + operand bytes, and it answers a next state. The model's step is this
at the default parameters. (States R80.) -/
def Obligations.StepIsTheSpecsTransition : Prop :=
  (∀ s, step s = stepWith Config.default s) ∧
  ∀ (cfg : Config) (s : State),
    (lookup cfg.catalog (s.read s.pc) = none → stepWith cfg s = .refused (.undefinedOpcode (s.read s.pc) s.pc)) ∧
    ∀ r, lookup cfg.catalog (s.read s.pc) = some r →
      let f := r.mode.form (s.read (s.pc + 1)) (s.read (s.pc + 2))
      let opnd := resolve cfg f s
      (accepts r.operation opnd.kind = false →
        stepWith cfg s = .fault (.contractViolation (s.read s.pc) s.pc)) ∧
      (accepts r.operation opnd.kind = true →
        ∃ t, stepWith cfg s = .next t ∧
          handlerOf cfg (r.operation.instr f) opnd (1 + r.mode.operandBytes) s = .next t)

/-- The accepted kinds are: constant or address for load and compare; address for store, increment and decrement of
memory, jump, jump to subroutine and branch; accumulator or address for shift left; none for every other operation.
For each of the 45 operations, at every operand form and in every state, exec answers a next state if the form's
operand kind is accepted, and otherwise the fault ContractViolation with the opcode byte at PC and PC. Every entry of
the default catalog is accepted, so no opcode of it produces a mismatch. The accepted kinds are R99's. That exec runs
at forms no catalog entry has is log entry 16, that the report's opcode byte is the one at PC whatever exec is given
is log entry 2 (both DEDUCED); the effect of a mismatch is the spec's decision D11, the catalog's modes D4 (log entry
3). (Derived from R99, 60_exceptions.md section 1, 92_eei_decisions.md D4, 92_eei_decisions.md D11.) -/
def Obligations.EveryAcceptedOperandCompletes : Prop :=
  (∀ (o : Operation) (k : OperandKind), accepts o k = true ↔
      (o ∈ [.lda, .ldx, .ldy, .cmp, .cpx, .cpy] ∧ (k = .const ∨ k = .addr)) ∨
      (o ∈ [.sta, .stx, .sty, .inc, .dec, .jmp, .jsr, .bcc, .bcs, .bne, .beq, .bvc, .bvs, .bpl, .bmi] ∧ k = .addr) ∨
      (o = .asl ∧ (k = .acc ∨ k = .addr)) ∨
      (o ∉ [.lda, .ldx, .ldy, .cmp, .cpx, .cpy, .sta, .stx, .sty, .inc, .dec, .jmp, .jsr, .bcc, .bcs, .bne, .beq, .bvc,
            .bvs, .bpl, .bmi, .asl] ∧ k = .none)) ∧
  (∀ (o : Operation) (f : Form) (s : State),
    (accepts o (resolve Config.default f s).kind = true → ∃ t, exec (o.instr f) s = .next t) ∧
    (accepts o (resolve Config.default f s).kind = false →
      exec (o.instr f) s = .fault (.contractViolation (s.read s.pc) s.pc))) ∧
  ∀ r ∈ defaultCatalog, accepts r.operation r.mode.kind = true

/-- For each of the 164 bytes R101 lists, and for no other byte: when it stands at PC, the step reports
UndefinedOpcode with that byte and PC, whatever bytes follow it; the report has outcome code 1; the host's Step
leaves the state as it was, so the next Step reports the same again. exec of the undefined sentinel is that report.
The stop is R281's; the list of bytes is the spec's decision D1 (log entry 3), the code D10 (log entry 21). (Derived
from R281, 60_exceptions.md section 1, 30_encoding.md section 4, 92_eei_decisions.md D1, 92_eei_decisions.md D10.) -/
def Obligations.UndefinedOpcodeStopsWithNothingChanged : Prop :=
  (∀ s : State, s.read s.pc ∈ undefinedOpcodes ↔ Stopped s) ∧
  (∀ (s : State) (op : Byte), exec (.undefined op) s = .refused (.undefinedOpcode op s.pc)) ∧
  ∀ s : State, s.read s.pc ∈ undefinedOpcodes →
    outcomeCode (step s) = 1 ∧
    perform Config.default .step s = (.stopped (.undefinedOpcode (s.read s.pc) s.pc), s)

/-- In every state whatever, with the default catalog, the step either answers a next state, or the byte at PC is an
undefined opcode and the step reports that; no step ever faults. (States R271.) -/
def Obligations.OnlyAnUndefinedOpcodeStopsTheEngine : Prop :=
  ∀ s : State, (Runs s ∧ lookup defaultCatalog (s.read s.pc) ≠ none) ∨
    (Stopped s ∧ lookup defaultCatalog (s.read s.pc) = none)

/-- Under any parameters, if the host's Step does not reply ok, the state after it is the state before it; so it is,
in every part, for UndefinedOpcode and for ContractViolation. (States R285.) -/
def Obligations.AStepThatIsNotOkChangesNothing : Prop :=
  ∀ (cfg : Config) (s : State),
    ((perform cfg .step s).1 ≠ .ok → (perform cfg .step s).2 = s) ∧
    (∀ r, stepWith cfg s = .refused r → perform cfg .step s = (.stopped r, s)) ∧
    ∀ r, stepWith cfg s = .fault r → perform cfg .step s = (.faulted r, s)

/-- For every well-formed instruction, with every operand at every value, decoding its encoding followed by any bytes
answers the instruction and those bytes. The opcode bytes are the spec's decision D1 (log entry 3). (Derived from
30_encoding.md section 2, 30_encoding.md section 4, 92_eei_decisions.md D1.) -/
def Obligations.DecodeOfEncode : Prop :=
  ∀ (i : Instr) (rest : List Byte), i.WellFormed → decode (encode i ++ rest) = .ok (i, rest)

/-- If decoding a byte sequence answers an instruction and the bytes after it, the instruction is well-formed and its
encoding followed by those bytes is the sequence: every byte has one meaning, and no operand bit is dropped. The
opcode bytes are the spec's decision D1 (log entry 3). (Derived from 30_encoding.md section 1, 30_encoding.md section
4, 92_eei_decisions.md D1.) -/
def Obligations.EncodeOfDecode : Prop :=
  ∀ (bytes rest : List Byte) (i : Instr), decode bytes = .ok (i, rest) →
    i.WellFormed ∧ encode i ++ rest = bytes

/-- The operand byte counts are 0 for Implied and Accumulator, 2 for Absolute, Absolute,X, Absolute,Y and Indirect,
and 1 for the other seven modes. If decoding a byte sequence answers an instruction of some operation, it took 1 +
the operand bytes of the instruction's mode from the front. Two sequences with the same first byte decode to
instructions of the same length. (States R83.) -/
def Obligations.DecodedLengthIsOnePlusOperandBytes : Prop :=
  (∀ m : AddrMode, m.operandBytes =
      if m = .implied ∨ m = .accumulator then 0
      else if m = .absolute ∨ m = .absoluteX ∨ m = .absoluteY ∨ m = .indirect then 2 else 1) ∧
  (∀ (bytes rest : List Byte) (i : Instr) (o : Operation), decode bytes = .ok (i, rest) → i.operation = some o →
    i.length = 1 + i.form.mode.operandBytes ∧ bytes.drop i.length = rest ∧
      bytes.length = 1 + i.form.mode.operandBytes + rest.length) ∧
  ∀ (op : Byte) (q q' rest rest' : List Byte) (i i' : Instr),
    decode (op :: q) = .ok (i, rest) → decode (op :: q') = .ok (i', rest') → i.length = i'.length

/-- The Encoding lines of the 45 operations' rules (R120 to R270), 92 bytes in all, are the opcode bytes of the
encoder's and decoder's table, which is written from the map of R100. The bytes are the spec's decision D1 (log entry
3). (Derived from 40_load_store.md, 41_transfer.md, 42_inc_dec.md, 43_shift.md, 44_compare.md, 45_flags.md,
46_stack.md, 47_control.md, 48_nop.md, 92_eei_decisions.md D1.) -/
def Obligations.OpcodeBytesOfTheRules : Prop :=
  defaultCatalog.length = 92 ∧
  ∀ e ∈ Sys2Proof.Machine.encodingLines, opcodeOf e.1 e.2.1 = some e.2.2 ∧
    (lookup defaultCatalog e.2.2).map (fun r => (r.operation, r.mode)) = some (e.1, e.2.1)

/-- One instruction of each family, its bytes as the spec's examples write them: LDX #$FF, STX $33,Y, TAX, INC $10,
ASL A, CMP #$02, SEC, PLP, BNE with displacement 0xFB, JMP ($0040), NOP, and the undefined byte 0x00; and STA
absolute with one operand byte of its two is rejected. That last clause is the model's: a sequence that ends too soon
is no notion of the spec, which only gives the operand byte count (DESIGN CHOICE, log entry 27). The bytes other than
0xA2 are the spec's decision D1 (log entry 3). (Derived from 30_encoding.md section 2, 30_encoding.md section 5,
95_test_vectors.md, 92_eei_decisions.md D1.) -/
def Obligations.WordsDecodeAsTheSpecWritesThem : Prop :=
  decode [0xA2, 0xFF] = .ok (.ldx (.immediate 0xFF), []) ∧
  decode [0x96, 0x33] = .ok (.stx (.zeroPageY 0x33), []) ∧
  decode [0xAA] = .ok (.tax .implied, []) ∧
  decode [0xE6, 0x10] = .ok (.inc (.zeroPage 0x10), []) ∧
  decode [0x0A] = .ok (.asl .accumulator, []) ∧
  decode [0xC9, 0x02] = .ok (.cmp (.immediate 0x02), []) ∧
  decode [0x38] = .ok (.sec .implied, []) ∧
  decode [0x28] = .ok (.plp .implied, []) ∧
  decode [0xD0, 0xFB] = .ok (.bne (.relative 0xFB), []) ∧
  decode [0x6C, 0x40, 0x00] = .ok (.jmp (.indirect 0x0040), []) ∧
  decode [0xEA] = .ok (.nop .implied, []) ∧
  decode [0x00] = .ok (.undefined 0x00, []) ∧
  decode [0x8D, 0x00] = .error (.operandBytesMissing 0x8D)

/-- Under any parameters and in any state, from the operand bytes b1 and b2: Implied gives no operand, Accumulator
the accumulator, Immediate the constant b1, Zero Page the address b1 zero-extended, Absolute the little-endian 16-bit
value b2:b1; with 0, 0, 1, 1 and 2 operand bytes. (States R86, R87, R88, R89, R93.) -/
def Obligations.UnindexedModesResolve : Prop :=
  ∀ (cfg : Config) (s : State) (b1 b2 : Byte),
    resolve cfg (AddrMode.implied.form b1 b2) s = .none ∧ AddrMode.implied.operandBytes = 0 ∧
    resolve cfg (AddrMode.accumulator.form b1 b2) s = .acc ∧ AddrMode.accumulator.operandBytes = 0 ∧
    resolve cfg (AddrMode.immediate.form b1 b2) s = .const b1 ∧ AddrMode.immediate.operandBytes = 1 ∧
    (∃ k, resolve cfg (AddrMode.zeroPage.form b1 b2) s = .addr k ∧ k.toNat = b1.toNat) ∧
    AddrMode.zeroPage.operandBytes = 1 ∧
    (∃ k, resolve cfg (AddrMode.absolute.form b1 b2) s = .addr k ∧ k.toNat = b2.toNat * 256 + b1.toNat) ∧
    AddrMode.absolute.operandBytes = 2

/-- Under any parameters and in any state: Zero Page,X and Zero Page,Y give (b1 + index) mod 256; Absolute,X and
Absolute,Y give (b2:b1 + index) mod 65536, with 1, 1, 2 and 2 operand bytes. (States R90, R91, R94, R95.) -/
def Obligations.IndexedModesWrap : Prop :=
  ∀ (cfg : Config) (s : State) (b1 b2 : Byte),
    (∃ k, resolve cfg (AddrMode.zeroPageX.form b1 b2) s = .addr k ∧ k.toNat = (b1.toNat + s.x.toNat) % 256) ∧
    AddrMode.zeroPageX.operandBytes = 1 ∧
    (∃ k, resolve cfg (AddrMode.zeroPageY.form b1 b2) s = .addr k ∧ k.toNat = (b1.toNat + s.y.toNat) % 256) ∧
    AddrMode.zeroPageY.operandBytes = 1 ∧
    (∃ k, resolve cfg (AddrMode.absoluteX.form b1 b2) s = .addr k ∧
      k.toNat = (b2.toNat * 256 + b1.toNat + s.x.toNat) % 65536) ∧
    AddrMode.absoluteX.operandBytes = 2 ∧
    (∃ k, resolve cfg (AddrMode.absoluteY.form b1 b2) s = .addr k ∧
      k.toNat = (b2.toNat * 256 + b1.toNat + s.y.toNat) % 65536) ∧
    AddrMode.absoluteY.operandBytes = 2

/-- Under any parameters and in any state, Relative takes one operand byte b1 and gives (PC + 2 + b1 as a signed
value) mod 65536, the signed value in -128..127; 0xFE gives PC itself and 0x00 gives PC + 2. Only the eight branch
operations take the mode. (States R92.) -/
def Obligations.RelativeOperandIsSignedFromTheNextInstruction : Prop :=
  AddrMode.relative.operandBytes = 1 ∧
  (∀ (cfg : Config) (s : State) (b1 b2 : Byte),
    -128 ≤ b1.toInt ∧ b1.toInt ≤ 127 ∧
    ∃ k, resolve cfg (AddrMode.relative.form b1 b2) s = .addr k ∧
      (k.toNat : Int) = ((s.pc.toNat : Int) + 2 + b1.toInt) % 65536 ∧
      (b1 = 0xFE → k = s.pc) ∧ (b1 = 0x00 → k = s.pc + 2)) ∧
  ∀ o : Operation, AddrMode.relative ∈ o.modes ↔ o ∈ [.bcc, .bcs, .bne, .beq, .bvc, .bvs, .bpl, .bmi]

/-- In any state, Indirect gives the 16-bit value with low byte at b2:b1 and high byte at (b2:b1 + 1) mod 65536, or
with JMP_IND_PAGE_WRAP at b2:((b1 + 1) mod 256). Indirect,X gives the address (b1 + X) mod 256 itself, or with
INDX_DEREF the pointer whose bytes are there and at the next byte modulo 256. Indirect,Y gives the pointer at b1 (its
high byte at b1 + 1, which is 0x0100 for 0xFF), plus Y, modulo 65536. Only jump takes Indirect. This rests on the
spec's decisions D6, D7, D8 and D9 (log entries 4, 5, 9 and 10). (Derived from 30_encoding.md section 3, 20_memory.md
section 2, 92_eei_decisions.md D6, 92_eei_decisions.md D7, 92_eei_decisions.md D8, 92_eei_decisions.md D9.) -/
def Obligations.IndirectModesResolve : Prop :=
  (∀ (cfg : Config) (s : State) (b1 b2 : Byte),
    (∀ p p' : Addr, p.toNat = b2.toNat * 256 + b1.toNat →
      p'.toNat = (if cfg.jmpIndPageWrap = true then b2.toNat * 256 + (b1.toNat + 1) % 256
        else (b2.toNat * 256 + b1.toNat + 1) % 65536) →
      ∃ k, resolve cfg (AddrMode.indirect.form b1 b2) s = .addr k ∧
        k.toNat = (s.read p').toNat * 256 + (s.read p).toNat) ∧
    (∀ p p' : Addr, p.toNat = (b1.toNat + s.x.toNat) % 256 → p'.toNat = (b1.toNat + s.x.toNat + 1) % 256 →
      ∃ k, resolve cfg (AddrMode.indirectX.form b1 b2) s = .addr k ∧
        k.toNat = if cfg.indxDeref = true then (s.read p').toNat * 256 + (s.read p).toNat
          else (b1.toNat + s.x.toNat) % 256) ∧
    ∀ p p' : Addr, p.toNat = b1.toNat → p'.toNat = b1.toNat + 1 →
      ∃ k, resolve cfg (AddrMode.indirectY.form b1 b2) s = .addr k ∧
        k.toNat = ((s.read p').toNat * 256 + (s.read p).toNat + s.y.toNat) % 65536) ∧
  (Config.default.jmpIndPageWrap = false ∧ Config.default.indxDeref = false) ∧
  ∀ o : Operation, AddrMode.indirect ∈ o.modes ↔ o = .jmp

/-- After any sequence of byte writes from any state, a read of any address returns the last value written to that
address, or what the state held there if none was written, and registers are unchanged; from construct, an address
never written reads 0x00. (States R50, R59.) -/
def Obligations.MemoryReturnsTheLastWrite : Prop :=
  ∀ (ws : List (Addr × Byte)) (s : State),
    let t := ws.foldl (fun u w => u.write w.1 w.2) s
    (∀ k, t.read k = ((ws.reverse.find? fun w => w.1 == k).map (·.2)).getD (s.read k)) ∧
    t = { s with mem := t.mem } ∧
    (s = State.reset → ∀ k, (∀ w ∈ ws, w.1 ≠ k) → t.read k = 0x00)

/-- Two memories in canonical form that read alike at every address are equal lists. The canonical form is the
model's own choice (log entry 14). (Derived from 20_memory.md section 1.) -/
def Obligations.EqualContentsAreEqualMemories : Prop :=
  ∀ m n : Memory, m.wf → n.wf → (∀ k : Addr, m.byteAt k.toNat = n.byteAt k.toNat) → m = n

/-- From every state, reachable or not, whose memory is in canonical form and whose stub bit is 1, a step that
answers a next state answers one with both. The stub bit after pull status is the spec's decision D12 (log entry 6);
the canonical form is the model's own choice (log entry 14). (Derived from 10_state.md section 6, 20_memory.md
section 1, 92_eei_decisions.md D12.) -/
def Obligations.EveryStepKeepsTheInvariant : Prop :=
  ∀ s t : State, s.Inv → step s = .next t → t.Inv

/-- The invariant that every step keeps holds of the construct state. The canonical form is the model's own choice
(log entry 14). (Derived from 10_state.md section 5.) -/
def Obligations.ConstructMeetsTheInvariant : Prop :=
  State.reset.Inv

/-- Under any catalog and any other parameters with PLP_STUB_VERBATIM false, the stub bit is 1 in every state
reachable from construct by any host commands (Construct, Load, Step, Inspect) in any order; with PLP_STUB_VERBATIM
true, some reachable state has it 0. This is the spec's decision D12 (log entry 6). (Derived from 10_state.md section
6, 46_stack.md, 92_eei_decisions.md D12.) -/
def Obligations.StubBitInReachableStates : Prop :=
  (∀ (cfg : Config) (s : State), cfg.plpStubVerbatim = false → Reachable cfg s → s.flag .stub = true) ∧
  ∃ s, Reachable { Config.default with plpStubVerbatim := true } s ∧ s.flag .stub = false

/-- If the three bytes from PC on decode to STA, STX or STY at any form, with operand address k and register value v,
the step stores v at k, and at no other address, and goes on past the instruction, for every k: the instruction's own
opcode and operand bytes at PC, PC + 1 and PC + 2 among them. And the next step is exec of what the three bytes from
there on decode to, the byte at k being v: if k is the next PC, v is the opcode byte, whatever v is. This rests on
the spec's decisions D14 and D15 (log entry 12), the opcode bytes on D1 (log entry 3). (Derived from 20_memory.md
section 6, 70_reset_and_hazards.md section 2, 92_eei_decisions.md D1, 92_eei_decisions.md D14, 92_eei_decisions.md
D15.) -/
def Obligations.StoredCodeIsFetched : Prop :=
  ∀ (s : State) (o : Operation) (f : Form) (v : Byte) (k : Addr) (rest : List Byte),
    (o, v) ∈ [(Operation.sta, s.a), (.stx, s.x), (.sty, s.y)] →
    decode [s.read s.pc, s.read (s.pc + 1), s.read (s.pc + 2)] = .ok (o.instr f, rest) → OperandAt f s k →
    ∃ m, step s = .next { s with mem := m, pc := s.pcAfter f } ∧ OneByteStored s m k v ∧
      ∀ (i : Instr) (rest' : List Byte),
        let byte := fun j : Addr => if j = k then v else s.read j
        decode [byte (s.pcAfter f), byte (s.pcAfter f + 1), byte (s.pcAfter f + 2)] = .ok (i, rest') →
        step { s with mem := m, pc := s.pcAfter f } = exec i { s with mem := m, pc := s.pcAfter f }

/-- Push8(v) stores v at 0x0100 + SP, nowhere else, and leaves SP - 1 modulo 256; Pull8 leaves SP + 1 modulo 256 and
returns the byte at 0x0100 + the new SP. Neither writes a flag or another register, and neither checks for overflow:
a push at SP = 0x00 writes 0x0100 and leaves 0xFF, a pull at SP = 0xFF leaves 0x00 and reads 0x0100. (States R55.) -/
def Obligations.PushAndPullOneByte : Prop :=
  ∀ (s : State) (v : Byte),
    (∃ (m : Memory) (k : Addr) (q : Byte), s.push8 v = { s with mem := m, sp := q } ∧
      k.toNat = 256 + s.sp.toNat ∧ OneByteStored s m k v ∧ q.toNat = (s.sp.toNat + 255) % 256) ∧
    (∃ (k : Addr) (q : Byte), s.pull8 = (s.read k, { s with sp := q }) ∧
      k.toNat = 256 + q.toNat ∧ q.toNat = (s.sp.toNat + 1) % 256)

/-- From SP = s, Push16(w) leaves w's high byte at 0x0100 + s, its low byte at 0x0100 + (s - 1) mod 256, every other
byte as it was, and SP = (s - 2) mod 256; Pull16 on that state returns w and SP = s, for every w and every s. (States
R56.) -/
def Obligations.PushWordThenPullWordIsTheIdentity : Prop :=
  ∀ (s : State) (w : Addr), ∃ (m : Memory) (k k' : Addr) (q : Byte),
    s.push16 w = { s with mem := m, sp := q } ∧
    k.toNat = 256 + s.sp.toNat ∧ k'.toNat = 256 + (s.sp.toNat + 255) % 256 ∧ q.toNat = (s.sp.toNat + 254) % 256 ∧
    (m.byteAt k.toNat).toNat = w.toNat / 256 ∧ (m.byteAt k'.toNat).toNat = w.toNat % 256 ∧
    (∀ j : Addr, j ≠ k → j ≠ k' → m.byteAt j.toNat = s.read j) ∧
    (s.push16 w).pull16 = (w, { s with mem := m })

/-- For every value and state, SetZN changes P alone: Z becomes 1 exactly when the value is 0, N becomes bit 7 of the
value, and every other bit of P is unchanged. (States R10.) -/
def Obligations.SetZNWritesZeroAndNegativeOnly : Prop :=
  ∀ (s : State) (v : Byte), ∃ q, s.setZN v = { s with p := q } ∧
    StatusAfter s.p q [(.zero, decide (v = 0)), (.negative, v.getLsbD 7)]

/-- Each named bit of P is the bit of P at its position, and writing it leaves the seven others as they were and
changes P alone. The positions are the spec's decision D2 (log entry 8). (Derived from 10_state.md section 6,
92_eei_decisions.md D2.) -/
def Obligations.StatusBitLayout : Prop :=
  (∀ s : State, s.flag .carry = s.p.getLsbD 0 ∧ s.flag .zero = s.p.getLsbD 1 ∧ s.flag .interruptMask = s.p.getLsbD 2 ∧
      s.flag .decimal = s.p.getLsbD 3 ∧ s.flag .brk = s.p.getLsbD 4 ∧ s.flag .stub = s.p.getLsbD 5 ∧
      s.flag .overflow = s.p.getLsbD 6 ∧ s.flag .negative = s.p.getLsbD 7) ∧
  ∀ (s : State) (b : StatusBit) (v : Bool), ∃ q, s.setFlag b v = { s with p := q } ∧ StatusAfter s.p q [(b, v)]

/-- For every operand form whose operand is a value v, a constant or the memory byte at the operand address, and
every state: LDA, LDX and LDY each answer the next state in which the register is v, Z is v = 0, N is bit 7 of v, PC
is past the instruction, and every other register, every other bit of P and all of memory are unchanged. (Derived
from 40_load_store.md section 1, 00_scope.md section 5.) -/
def Obligations.LoadsWriteTheRegisterZeroNegative : Prop :=
  ∀ (f : Form) (s : State) (v : Byte), OperandIs f s v →
    ∃ q, StatusAfter s.p q [(.zero, decide (v = 0)), (.negative, v.getLsbD 7)] ∧
      exec (.lda f) s = .next { s with a := v, p := q, pc := s.pcAfter f } ∧
      exec (.ldx f) s = .next { s with x := v, p := q, pc := s.pcAfter f } ∧
      exec (.ldy f) s = .next { s with y := v, p := q, pc := s.pcAfter f }

/-- For every operand form that resolves to an address and every state: STA, STX and STY each answer the next state
in which the byte at that address is the register, every other byte of memory reads as before, PC is past the
instruction, and every register and all of P are unchanged. (Derived from 40_load_store.md section 2, 90_conflicts.md
C7.) -/
def Obligations.StoresWriteOneByteAndNoFlag : Prop :=
  ∀ (f : Form) (s : State) (k : Addr), OperandAt f s k →
    (∃ m, exec (.sta f) s = .next { s with mem := m, pc := s.pcAfter f } ∧ OneByteStored s m k s.a) ∧
    (∃ m, exec (.stx f) s = .next { s with mem := m, pc := s.pcAfter f } ∧ OneByteStored s m k s.x) ∧
    (∃ m, exec (.sty f) s = .next { s with mem := m, pc := s.pcAfter f } ∧ OneByteStored s m k s.y)

/-- In every state, each of TAX, TXA, TAY, TYA answers the next state in which the destination is the source, Z and N
are by SetZN of it, PC is one further, and everything else is unchanged. (Derived from 41_transfer.md.) -/
def Obligations.TransfersCopyAndSetZeroNegative : Prop :=
  ∀ s : State,
    (∃ q, exec (.tax .implied) s = .next { s with x := s.a, p := q, pc := s.pc + 1 } ∧
      StatusAfter s.p q [(.zero, decide (s.a = 0)), (.negative, s.a.getLsbD 7)]) ∧
    (∃ q, exec (.txa .implied) s = .next { s with a := s.x, p := q, pc := s.pc + 1 } ∧
      StatusAfter s.p q [(.zero, decide (s.x = 0)), (.negative, s.x.getLsbD 7)]) ∧
    (∃ q, exec (.tay .implied) s = .next { s with y := s.a, p := q, pc := s.pc + 1 } ∧
      StatusAfter s.p q [(.zero, decide (s.a = 0)), (.negative, s.a.getLsbD 7)]) ∧
    (∃ q, exec (.tya .implied) s = .next { s with a := s.y, p := q, pc := s.pc + 1 } ∧
      StatusAfter s.p q [(.zero, decide (s.y = 0)), (.negative, s.y.getLsbD 7)])

/-- In every state, TSX answers the next state with X = SP, TXS the one with SP = X, PC one further, and everything
else, all of P included, unchanged. That the specific contract wins over the general flag rule is the spec's
resolution C6. (Derived from 41_transfer.md, 90_conflicts.md C6.) -/
def Obligations.StackPointerTransfersWriteNoFlag : Prop :=
  ∀ s : State,
    exec (.tsx .implied) s = .next { s with x := s.sp, pc := s.pc + 1 } ∧
    exec (.txs .implied) s = .next { s with sp := s.x, pc := s.pc + 1 }

/-- In every state, INX, INY, DEX and DEY answer the next state in which the register is its value plus or minus 1
modulo 256; INC and DEC, at every operand form that resolves to an address, the one in which that byte of memory, and
no other, is. Z and N are by SetZN of the wrapped result, C, V and every other bit of P are unchanged, PC is past the
instruction, and everything else is unchanged. (States R164.) -/
def Obligations.CountersWrapModulo256 : Prop :=
  ∀ (s : State) (r : Byte) (q : Byte), StatusAfter s.p q [(.zero, decide (r = 0)), (.negative, r.getLsbD 7)] →
    (r.toNat = (s.x.toNat + 1) % 256 →
      exec (.inx .implied) s = .next { s with x := r, p := q, pc := s.pc + 1 }) ∧
    (r.toNat = (s.x.toNat + 255) % 256 →
      exec (.dex .implied) s = .next { s with x := r, p := q, pc := s.pc + 1 }) ∧
    (r.toNat = (s.y.toNat + 1) % 256 →
      exec (.iny .implied) s = .next { s with y := r, p := q, pc := s.pc + 1 }) ∧
    (r.toNat = (s.y.toNat + 255) % 256 →
      exec (.dey .implied) s = .next { s with y := r, p := q, pc := s.pc + 1 }) ∧
    (∀ f k, OperandAt f s k → r.toNat = ((s.read k).toNat + 1) % 256 →
      ∃ m, exec (.inc f) s = .next { s with mem := m, p := q, pc := s.pcAfter f } ∧ OneByteStored s m k r) ∧
    (∀ f k, OperandAt f s k → r.toNat = ((s.read k).toNat + 255) % 256 →
      ∃ m, exec (.dec f) s = .next { s with mem := m, p := q, pc := s.pcAfter f } ∧ OneByteStored s m k r)

/-- In every state, ASL on the accumulator answers the next state in which A is 2 * A modulo 256; at every operand
form that resolves to an address, the one in which that byte of memory, and no other, is doubled modulo 256 in place.
C is the old bit 7, Z and N are of the result, V and every other bit of P are unchanged, PC is past the instruction,
and everything else is unchanged. (Derived from 43_shift.md.) -/
def Obligations.ShiftLeftWritesCarryZeroNegative : Prop :=
  ∀ (s : State) (v r q : Byte), r.toNat = (v.toNat * 2) % 256 →
    StatusAfter s.p q [(.carry, v.getLsbD 7), (.zero, decide (r = 0)), (.negative, r.getLsbD 7)] →
    (v = s.a → exec (.asl .accumulator) s = .next { s with a := r, p := q, pc := s.pc + 1 }) ∧
    ∀ f k, OperandAt f s k → v = s.read k →
      ∃ m, exec (.asl f) s = .next { s with mem := m, p := q, pc := s.pcAfter f } ∧ OneByteStored s m k r

/-- For every operand form whose operand is a value m, and every state: CMP, CPX and CPY answer the next state in
which, with r the register, C is r >= m unsigned, Z is r = m, N is bit 7 of (r - m) modulo 256, V, I, D, B and the
stub are unchanged, PC is past the instruction, and no register and no memory byte is written. (States R193.) -/
def Obligations.ComparesSetCarryZeroNegativeOnly : Prop :=
  ∀ (f : Form) (s : State) (m : Byte), OperandIs f s m →
    let flags := fun (r q : Byte) => StatusAfter s.p q
      [(.carry, decide (m.toNat ≤ r.toNat)), (.zero, decide (r = m)),
       (.negative, decide (128 ≤ (r.toNat + 256 - m.toNat) % 256))]
    (∃ q, exec (.cmp f) s = .next { s with p := q, pc := s.pcAfter f } ∧ flags s.a q) ∧
    (∃ q, exec (.cpx f) s = .next { s with p := q, pc := s.pcAfter f } ∧ flags s.x q) ∧
    (∃ q, exec (.cpy f) s = .next { s with p := q, pc := s.pcAfter f } ∧ flags s.y q)

/-- In every state, each answers the next state in which its flag is 1 (SEC, SEI, SED) or 0 (CLC, CLI, CLD, CLV),
every other bit of P is unchanged, PC is one further, and everything else is unchanged. There is no set-overflow
instruction: if exec of any instruction at any form takes V from 0 to 1, it is PLP. That there is none is the spec's
decision D5 (log entry 18). (Derived from 45_flags.md, 92_eei_decisions.md D5.) -/
def Obligations.FlagInstructionsForceOneFlag : Prop :=
  (∀ s : State,
    (∃ q, exec (.sec .implied) s = .next { s with p := q, pc := s.pc + 1 } ∧ StatusAfter s.p q [(.carry, true)]) ∧
    (∃ q, exec (.clc .implied) s = .next { s with p := q, pc := s.pc + 1 } ∧ StatusAfter s.p q [(.carry, false)]) ∧
    (∃ q, exec (.sei .implied) s = .next { s with p := q, pc := s.pc + 1 } ∧
      StatusAfter s.p q [(.interruptMask, true)]) ∧
    (∃ q, exec (.cli .implied) s = .next { s with p := q, pc := s.pc + 1 } ∧
      StatusAfter s.p q [(.interruptMask, false)]) ∧
    (∃ q, exec (.sed .implied) s = .next { s with p := q, pc := s.pc + 1 } ∧ StatusAfter s.p q [(.decimal, true)]) ∧
    (∃ q, exec (.cld .implied) s = .next { s with p := q, pc := s.pc + 1 } ∧ StatusAfter s.p q [(.decimal, false)]) ∧
    (∃ q, exec (.clv .implied) s = .next { s with p := q, pc := s.pc + 1 } ∧ StatusAfter s.p q [(.overflow, false)])) ∧
  ∀ (i : Instr) (s t : State), exec i s = .next t → s.flag .overflow = false → t.flag .overflow = true → OneOf [.plp] i

/-- In every state, PHA stores A and PHP stores P, all eight bits as they are, at 0x0100 + SP; SP is decremented
modulo 256, PC is one further, every other byte of memory reads as before, and every other register, P included, is
unchanged. That P is pushed with no bit forced is the spec's decision D13 (log entry 11). (Derived from 46_stack.md,
92_eei_decisions.md D13.) -/
def Obligations.PushesStoreTheRegister : Prop :=
  ∀ (s : State) (k : Addr) (q : Byte), k.toNat = 256 + s.sp.toNat → q.toNat = (s.sp.toNat + 255) % 256 →
    (∃ m, exec (.pha .implied) s = .next { s with mem := m, sp := q, pc := s.pc + 1 } ∧ OneByteStored s m k s.a) ∧
    (∃ m, exec (.php .implied) s = .next { s with mem := m, sp := q, pc := s.pc + 1 } ∧ OneByteStored s m k s.p)

/-- In every state, with k the address 0x0100 + (SP + 1) mod 256: PLA answers the next state in which A is the byte
at k, Z and N are by SetZN of it and the rest of P is unchanged; PLP the one in which every bit of P is that of the
byte at k, but the stub bit, which is 1, or the byte's own with PLP_STUB_VERBATIM. SP is incremented modulo 256, PC
is one further, and memory and every other register are unchanged. The stub bit is the spec's decision D12 (log entry
6). (Derived from 46_stack.md, 90_conflicts.md C5, 92_eei_decisions.md D12.) -/
def Obligations.PullsReadTheStackByte : Prop :=
  ∀ (s : State) (k : Addr) (q : Byte), q.toNat = (s.sp.toNat + 1) % 256 → k.toNat = 256 + q.toNat →
    (∃ p, exec (.pla .implied) s = .next { s with a := s.read k, sp := q, p := p, pc := s.pc + 1 } ∧
      StatusAfter s.p p [(.zero, decide (s.read k = 0)), (.negative, (s.read k).getLsbD 7)]) ∧
    (∃ p, exec (.plp .implied) s = .next { s with sp := q, p := p, pc := s.pc + 1 } ∧
      StatusAfter (s.read k) p [(.stub, true)]) ∧
    execWith { Config.default with plpStubVerbatim := true } (.plp .implied) s =
      .next { s with sp := q, p := s.read k, pc := s.pc + 1 }

/-- Each of the eight branch operations has a flag and a polarity such that in every state and for every displacement
byte b it answers the next state in which PC is the target, (PC + 2 + b as a signed value) mod 65536, if the flag
equals the polarity, and PC + 2 otherwise, and everything else is unchanged; 0xFE branches to itself and 0x00 to PC +
2 whether taken or not. (States R240.) -/
def Obligations.BranchesTakeTheResolvedAddressOrAdvance : Prop :=
  ∀ o ∈ ([.bcc, .bcs, .bne, .beq, .bvc, .bvs, .bpl, .bmi] : List Operation), ∃ (c : StatusBit) (polarity : Bool),
    ∀ (s : State) (b : Byte) (t : Addr), (t.toNat : Int) = ((s.pc.toNat : Int) + 2 + b.toInt) % 65536 →
      exec (o.instr (.relative b)) s = .next { s with pc := if s.flag c = polarity then t else s.pc + 2 } ∧
      (b = 0xFE → t = s.pc) ∧ (b = 0x00 → t = s.pc + 2)

/-- At every operand form that resolves to an address t and in every state, each branch answers the next state in
which PC is t if its flag has the value it tests for, past the instruction otherwise, and everything else is
unchanged. At Relative, the form R240 gives a branch, past the instruction is PC + 2; that exec runs at other forms,
and advances by their length, is DEDUCED (log entry 16). Which flag and polarity each branch tests is the spec's
decision D3 (log entry 13). (Derived from 47_control.md section 1, 47_control.md section 3, 92_eei_decisions.md D3.) -/
def Obligations.BranchFlagsAndPolarities : Prop :=
  ∀ (f : Form) (s : State) (t : Addr), OperandAt f s t →
    exec (.bcc f) s = .next { s with pc := if s.flag .carry = false then t else s.pcAfter f } ∧
    exec (.bcs f) s = .next { s with pc := if s.flag .carry = true then t else s.pcAfter f } ∧
    exec (.bne f) s = .next { s with pc := if s.flag .zero = false then t else s.pcAfter f } ∧
    exec (.beq f) s = .next { s with pc := if s.flag .zero = true then t else s.pcAfter f } ∧
    exec (.bvc f) s = .next { s with pc := if s.flag .overflow = false then t else s.pcAfter f } ∧
    exec (.bvs f) s = .next { s with pc := if s.flag .overflow = true then t else s.pcAfter f } ∧
    exec (.bpl f) s = .next { s with pc := if s.flag .negative = false then t else s.pcAfter f } ∧
    exec (.bmi f) s = .next { s with pc := if s.flag .negative = true then t else s.pcAfter f }

/-- At every operand form that resolves to an address t, Absolute and Indirect among them, and in every state, JMP
answers the next state with PC = t and everything else unchanged. (Derived from 47_control.md section 2,
92_eei_decisions.md D7.) -/
def Obligations.JumpSetsProgramCounterOnly : Prop :=
  ∀ (f : Form) (s : State) (t : Addr), OperandAt f s t → exec (.jmp f) s = .next { s with pc := t }

/-- At every operand form that resolves to an address t and in every state, with ret = PC + length - 1 (PC + 2 for
Absolute): JSR answers the next state in which the high byte of ret is at 0x0100 + SP, the low byte at 0x0100 + (SP -
1) mod 256, every other byte of memory reads as before, SP is SP - 2 modulo 256, PC is t as resolved before the
pushes, and everything else, P included, is unchanged. (Derived from 47_control.md section 2, 20_memory.md section
3.) -/
def Obligations.JumpToSubroutinePushesTheLastByteAddress : Prop :=
  ∀ (f : Form) (s : State) (t ret k k' : Addr) (q : Byte), OperandAt f s t →
    ret.toNat = (s.pc.toNat + f.length - 1) % 65536 → k.toNat = 256 + s.sp.toNat →
    k'.toNat = 256 + (s.sp.toNat + 255) % 256 → q.toNat = (s.sp.toNat + 254) % 256 →
    ∃ m, exec (.jsr f) s = .next { s with mem := m, sp := q, pc := t } ∧
      (m.byteAt k.toNat).toNat = ret.toNat / 256 ∧ (m.byteAt k'.toNat).toNat = ret.toNat % 256 ∧
      ∀ j : Addr, j ≠ k → j ≠ k' → m.byteAt j.toNat = s.read j

/-- In every state, with the low byte at 0x0100 + (SP + 1) mod 256 and the high byte at 0x0100 + (SP + 2) mod 256:
RTS answers the next state in which PC is that value plus 1 modulo 65536, SP is SP + 2 modulo 256, and everything
else, P and memory included, is unchanged. (Derived from 47_control.md section 2, 20_memory.md section 3.) -/
def Obligations.ReturnFromSubroutinePullsAndAddsOne : Prop :=
  ∀ (s : State) (k k' w : Addr) (q : Byte), k.toNat = 256 + (s.sp.toNat + 1) % 256 →
    k'.toNat = 256 + (s.sp.toNat + 2) % 256 → q.toNat = (s.sp.toNat + 2) % 256 →
    w.toNat = ((s.read k').toNat * 256 + (s.read k).toNat + 1) % 65536 →
    exec (.rts .implied) s = .next { s with sp := q, pc := w }

/-- In every state and for every target w, JSR absolute answers a next state t with PC = w; in every state u that has
t's SP and t's two stack bytes, whatever else it holds, RTS answers the next state with PC three past the call, SP as
before the call, and everything else as in u. (Derived from 47_control.md section 2, 95_test_vectors.md section 1.) -/
def Obligations.CallThenReturnComesBackAfterTheCall : Prop :=
  ∀ (s : State) (w : Addr), ∃ t, exec (.jsr (.absolute w)) s = .next t ∧ t.pc = w ∧
    ∀ u : State, u.sp = t.sp → u.read (stackAddr s.sp) = t.read (stackAddr s.sp) →
      u.read (stackAddr (s.sp - 1)) = t.read (stackAddr (s.sp - 1)) →
      exec (.rts .implied) u = .next { u with sp := s.sp, pc := s.pc + 3 }

/-- In every state, NOP answers the next state with PC + 1 modulo 65536 and everything else unchanged. (Derived from
48_nop.md.) -/
def Obligations.NoOperationAdvancesOnly : Prop :=
  ∀ (s : State) (w : Addr), w.toNat = (s.pc.toNat + 1) % 65536 → exec (.nop .implied) s = .next { s with pc := w }

/-- Whenever exec of any instruction at any form answers a next state: if the operation is none of jump, jump to
subroutine, return and the branches, PC is PC + length modulo 65536; jump, jump to subroutine and a taken branch put
PC at the resolved address; a branch not taken advances by the length; return puts PC at the pulled value plus 1.
(States R28.) -/
def Obligations.ProgramCounterAdvanceRule : Prop :=
  (∀ (i : Instr) (s t : State), exec i s = .next t →
    (¬ OneOf [.jmp, .jsr, .rts, .bcc, .bcs, .bne, .beq, .bvc, .bvs, .bpl, .bmi] i →
      t.pc.toNat = (s.pc.toNat + i.length) % 65536) ∧
    (OneOf [.jmp, .jsr] i → OperandAt i.form s t.pc) ∧
    (OneOf [.rts] i → t.pc = s.pull16.1 + 1)) ∧
  ∀ o ∈ ([.bcc, .bcs, .bne, .beq, .bvc, .bvs, .bpl, .bmi] : List Operation), ∃ (c : StatusBit) (polarity : Bool),
    ∀ (f : Form) (s t : State), exec (o.instr f) s = .next t →
      (s.flag c = polarity → OperandAt f s t.pc) ∧
      (s.flag c ≠ polarity → t.pc.toNat = (s.pc.toNat + f.length) % 65536)

/-- For every instruction, form and state: an instruction other than LDA, TXA, TYA, PLA and ASL on the accumulator
leaves A; an instruction other than STA, TAX, TAY, CMP, PHA and ASL on the accumulator has the same outcome whatever
A holds, but for A itself where it does not write it. Conversely each of the first list, at a form the catalog has,
changes A in some state, and each of the second has an outcome that depends on A. Loading any value into A writes no
other register but P and PC, and storing A then puts that value at any address: A is not hardwired and has no alias.
(States R23.) -/
def Obligations.AccumulatorIsUsedByItsListOnly : Prop :=
  (∀ (i : Instr) (s t : State), exec i s = .next t → ¬ (OneOf [.lda, .txa, .tya, .pla] i ∨ i = .asl .accumulator) → t.a = s.a) ∧
  (∀ (i : Instr) (s : State) (v : Byte), ¬ (OneOf [.sta, .tax, .tay, .cmp, .pha] i ∨ i = .asl .accumulator) →
    Ignores i s (OneOf [.lda, .txa, .tya, .pla] i ∨ i = .asl .accumulator) fun u => { u with a := v }) ∧
  (∀ o ∈ ([.lda, .txa, .tya, .pla] : List Operation), ∃ f, (o.instr f).WellFormed ∧ Writes (o.instr f) State.a) ∧
  (∀ o ∈ ([.sta, .tax, .tay, .cmp, .pha] : List Operation), ∃ f, (o.instr f).WellFormed ∧
    Reads (o.instr f) (OneOf [.lda, .txa, .tya, .pla] (o.instr f)) fun (v : Byte) u => { u with a := v }) ∧
  Writes (.asl .accumulator) State.a ∧ Reads (.asl .accumulator) True (fun (v : Byte) u => { u with a := v }) ∧
  ∀ (s : State) (v : Byte) (k : Addr), ∃ p m,
    exec (.lda (.immediate v)) s = .next { s with a := v, p := p, pc := s.pc + 2 } ∧
    exec (.sta (.absolute k)) { s with a := v, p := p, pc := s.pc + 2 } =
      .next { s with a := v, p := p, mem := m, pc := s.pc + 2 + 3 } ∧ m.byteAt k.toNat = v

/-- For every instruction, form and state: an instruction other than LDX, TAX, TSX, INX and DEX leaves X; an
instruction other than STX, TXA, TXS, CPX, INX, DEX and those at Zero Page,X, Absolute,X or Indirect,X has the same
outcome whatever X holds, but for X itself where it does not write it. Conversely each of the first list, at a form
the catalog has, changes X in some state, and each of the second, and every operation of the catalog at each of the
three modes it has, has an outcome that depends on X. Loading any value into X writes no other register but P and PC,
and storing X then puts that value at any address: X is not hardwired and has no alias. (States R24.) -/
def Obligations.IndexXIsUsedByItsListOnly : Prop :=
  (∀ (i : Instr) (s t : State), exec i s = .next t → ¬ OneOf [.ldx, .tax, .tsx, .inx, .dex] i → t.x = s.x) ∧
  (∀ (i : Instr) (s : State) (v : Byte), ¬ (OneOf [.stx, .txa, .txs, .cpx, .inx, .dex] i ∨ i.form.mode ∈ [.zeroPageX, .absoluteX, .indirectX]) →
    Ignores i s (OneOf [.ldx, .tax, .tsx, .inx, .dex] i) fun u => { u with x := v }) ∧
  (∀ o ∈ ([.ldx, .tax, .tsx, .inx, .dex] : List Operation), ∃ f, (o.instr f).WellFormed ∧ Writes (o.instr f) State.x) ∧
  (∀ o ∈ ([.stx, .txa, .txs, .cpx, .inx, .dex] : List Operation), ∃ f, (o.instr f).WellFormed ∧
    Reads (o.instr f) (OneOf [.ldx, .tax, .tsx, .inx, .dex] (o.instr f)) fun (v : Byte) u => { u with x := v }) ∧
  (∀ (o : Operation) (m : AddrMode), m ∈ o.modes → m ∈ [.zeroPageX, .absoluteX, .indirectX] → ∃ f, f.mode = m ∧
    Reads (o.instr f) (OneOf [.ldx, .tax, .tsx, .inx, .dex] (o.instr f)) fun (v : Byte) u => { u with x := v }) ∧
  ∀ (s : State) (v : Byte) (k : Addr), ∃ p m,
    exec (.ldx (.immediate v)) s = .next { s with x := v, p := p, pc := s.pc + 2 } ∧
    exec (.stx (.absolute k)) { s with x := v, p := p, pc := s.pc + 2 } =
      .next { s with x := v, p := p, mem := m, pc := s.pc + 2 + 3 } ∧ m.byteAt k.toNat = v

/-- For every instruction, form and state: an instruction other than LDY, TAY, INY and DEY leaves Y; an instruction
other than STY, TYA, CPY, INY, DEY and those at Zero Page,Y, Absolute,Y or Indirect,Y has the same outcome whatever Y
holds, but for Y itself where it does not write it. Conversely each of the first list, at a form the catalog has,
changes Y in some state, and each of the second, and every operation of the catalog at each of the three modes it
has, has an outcome that depends on Y. Loading any value into Y writes no other register but P and PC, and storing Y
then puts that value at any address: Y is not hardwired and has no alias. (States R25.) -/
def Obligations.IndexYIsUsedByItsListOnly : Prop :=
  (∀ (i : Instr) (s t : State), exec i s = .next t → ¬ OneOf [.ldy, .tay, .iny, .dey] i → t.y = s.y) ∧
  (∀ (i : Instr) (s : State) (v : Byte), ¬ (OneOf [.sty, .tya, .cpy, .iny, .dey] i ∨ i.form.mode ∈ [.zeroPageY, .absoluteY, .indirectY]) →
    Ignores i s (OneOf [.ldy, .tay, .iny, .dey] i) fun u => { u with y := v }) ∧
  (∀ o ∈ ([.ldy, .tay, .iny, .dey] : List Operation), ∃ f, (o.instr f).WellFormed ∧ Writes (o.instr f) State.y) ∧
  (∀ o ∈ ([.sty, .tya, .cpy, .iny, .dey] : List Operation), ∃ f, (o.instr f).WellFormed ∧
    Reads (o.instr f) (OneOf [.ldy, .tay, .iny, .dey] (o.instr f)) fun (v : Byte) u => { u with y := v }) ∧
  (∀ (o : Operation) (m : AddrMode), m ∈ o.modes → m ∈ [.zeroPageY, .absoluteY, .indirectY] → ∃ f, f.mode = m ∧
    Reads (o.instr f) (OneOf [.ldy, .tay, .iny, .dey] (o.instr f)) fun (v : Byte) u => { u with y := v }) ∧
  ∀ (s : State) (v : Byte) (k : Addr), ∃ p m,
    exec (.ldy (.immediate v)) s = .next { s with y := v, p := p, pc := s.pc + 2 } ∧
    exec (.sty (.absolute k)) { s with y := v, p := p, pc := s.pc + 2 } =
      .next { s with y := v, p := p, mem := m, pc := s.pc + 2 + 3 } ∧ m.byteAt k.toNat = v

/-- For every instruction, form and state: an instruction other than the pushes, the pulls, JSR, RTS and TXS leaves
SP; an instruction other than the pushes, the pulls, JSR, RTS and TSX has the same outcome whatever SP holds, but for
SP itself where it does not write it. Conversely each of the first list, at a form the catalog has, changes SP in
some state, and each of the second has an outcome that depends on SP. A push writes the byte at 0x0100 + SP and
decrements SP modulo 256; a pull increments it modulo 256 and then reads the byte at 0x0100 + SP. R29's words 'read
by: the same' take in TXS too; by TXS's own rule R145 it writes SP from X and does not read it (log entry 26).
(Derived from R145, 10_state.md section 4, 20_memory.md section 3.) -/
def Obligations.StackPointerIsUsedByItsListOnly : Prop :=
  (∀ (i : Instr) (s t : State), exec i s = .next t → ¬ OneOf [.pha, .php, .pla, .plp, .jsr, .rts, .txs] i → t.sp = s.sp) ∧
  (∀ (i : Instr) (s : State) (v : Byte), ¬ OneOf [.pha, .php, .pla, .plp, .jsr, .rts, .tsx] i →
    Ignores i s (OneOf [.pha, .php, .pla, .plp, .jsr, .rts, .txs] i) fun u => { u with sp := v }) ∧
  (∀ o ∈ ([.pha, .php, .pla, .plp, .jsr, .rts, .txs] : List Operation), ∃ f, (o.instr f).WellFormed ∧ Writes (o.instr f) State.sp) ∧
  (∀ o ∈ ([.pha, .php, .pla, .plp, .jsr, .rts, .tsx] : List Operation), ∃ f, (o.instr f).WellFormed ∧
    Reads (o.instr f) (OneOf [.pha, .php, .pla, .plp, .jsr, .rts, .txs] (o.instr f)) fun (v : Byte) u => { u with sp := v }) ∧
  ∀ (s : State) (v : Byte),
    (s.push8 v).sp.toNat = (s.sp.toNat + 255) % 256 ∧ (s.push8 v).read (0x0100 + s.sp.setWidth 16) = v ∧
    s.pull8.2.sp.toNat = (s.sp.toNat + 1) % 256 ∧ s.pull8.1 = s.read (0x0100 + s.pull8.2.sp.setWidth 16)

/-- For every bit of P, every instruction, form and state: an instruction that R33's table does not list as a writer
of the bit leaves it; an instruction that the table does not list as a reader of the bit has the same outcome
whatever the bit holds, but for the bit itself where it does not write it. Conversely each writer of one of the seven
flags, at a form the catalog has, changes it in some state, and each reader of a bit has an outcome that depends on
it. Pull status leaves the stub bit 1. At reset each of the seven flags is 0 and the stub bit 1. The stub clause is
the spec's decision D12 (log entry 6), the branches that read each flag D3 (log entry 13). (Derived from 10_state.md
section 6, 92_eei_decisions.md D3, 92_eei_decisions.md D12.) -/
def Obligations.FlagsAreUsedByTheirListsOnly : Prop :=
  (∀ (i : Instr) (s t : State) (b : StatusBit), exec i s = .next t → ¬ OneOf b.writers i → t.flag b = s.flag b) ∧
  (∀ (i : Instr) (s : State) (b : StatusBit) (v : Bool), ¬ OneOf b.readers i →
    Ignores i s (OneOf b.writers i) fun u => u.setFlag b v) ∧
  (∀ (b : StatusBit), b ≠ .stub → ∀ o ∈ b.writers, ∃ f, (o.instr f).WellFormed ∧
    Writes (o.instr f) fun u => u.flag b) ∧
  (∀ (b : StatusBit), ∀ o ∈ b.readers, ∃ f, (o.instr f).WellFormed ∧
    Reads (o.instr f) (OneOf b.writers (o.instr f)) fun (v : Bool) u => u.setFlag b v) ∧
  (∀ (s t : State) (f : Form), exec (.plp f) s = .next t → t.flag .stub = true) ∧
  ∀ b, State.reset.flag b = decide (b = .stub)

/-- For every address, byte sequence and state, at the default LOAD_OVERRUN: if addr + length is at most 0x10000,
Load stores byte n of the sequence at addr + n, leaves every other byte of memory and every register as they were,
and replies ok; otherwise it writes nothing and replies that it is refused. The refusal is the spec's decision D19
(log entry 7). (Derived from 70_reset_and_hazards.md section 1, 92_eei_decisions.md D19.) -/
def Obligations.LoadCopiesTheBytesOrIsRefused : Prop :=
  ∀ (addr : Addr) (bytes : List Byte) (s : State),
    (addr.toNat + bytes.length ≤ 65536 → ∃ m,
      perform Config.default (.load addr bytes) s = (.ok, { s with mem := m }) ∧
      ∀ k : Addr, m.byteAt k.toNat =
        if addr.toNat ≤ k.toNat then bytes.getD (k.toNat - addr.toNat) (s.read k) else s.read k) ∧
    (65536 < addr.toNat + bytes.length → perform Config.default (.load addr bytes) s = (.loadRefused, s))

/-- Inspect of an address replies with A, X, Y, SP, PC, P, each flag and the byte at that address, and leaves the
state as it was; neither it nor Load writes a register, so Construct is the only host command that sets registers
from outside. (States R313.) -/
def Obligations.InspectReadsAndChangesNothing : Prop :=
  ∀ (cfg : Config) (s : State) (k : Addr),
    perform cfg (.inspect k) s =
      (.view
        { a := s.a, x := s.x, y := s.y, sp := s.sp, pc := s.pc, p := s.p, carry := s.flag .carry, zero := s.flag .zero
          interruptMask := s.flag .interruptMask, decimal := s.flag .decimal, brk := s.flag .brk
          overflow := s.flag .overflow, negative := s.flag .negative, byte := s.read k }, s) ∧
    ∀ bytes, (perform cfg (.load k bytes) s).2 = { s with mem := (perform cfg (.load k bytes) s).2.mem }
end

