-- ==== Sys2Proof/Laws/State.lean ====
section
/-! SUPPORT. What each register write does to each field of the state: one lemma a field, true by definition. -/

namespace Sys2Proof.Machine

variable (s : State)

@[simp] theorem State.setA_a (v : Byte) : (s.setA v).a = v := rfl
@[simp] theorem State.setA_x (v : Byte) : (s.setA v).x = s.x := rfl
@[simp] theorem State.setA_y (v : Byte) : (s.setA v).y = s.y := rfl
@[simp] theorem State.setA_sp (v : Byte) : (s.setA v).sp = s.sp := rfl
@[simp] theorem State.setA_pc (v : Byte) : (s.setA v).pc = s.pc := rfl
@[simp] theorem State.setA_p (v : Byte) : (s.setA v).p = s.p := rfl
@[simp] theorem State.setA_mem (v : Byte) : (s.setA v).mem = s.mem := rfl
@[simp] theorem State.setA_read (v : Byte) (k : Addr) : (s.setA v).read k = s.read k := rfl
@[simp] theorem State.setA_flag (v : Byte) (b : StatusBit) : (s.setA v).flag b = s.flag b := rfl

@[simp] theorem State.setX_a (v : Byte) : (s.setX v).a = s.a := rfl
@[simp] theorem State.setX_x (v : Byte) : (s.setX v).x = v := rfl
@[simp] theorem State.setX_y (v : Byte) : (s.setX v).y = s.y := rfl
@[simp] theorem State.setX_sp (v : Byte) : (s.setX v).sp = s.sp := rfl
@[simp] theorem State.setX_pc (v : Byte) : (s.setX v).pc = s.pc := rfl
@[simp] theorem State.setX_p (v : Byte) : (s.setX v).p = s.p := rfl
@[simp] theorem State.setX_mem (v : Byte) : (s.setX v).mem = s.mem := rfl
@[simp] theorem State.setX_read (v : Byte) (k : Addr) : (s.setX v).read k = s.read k := rfl
@[simp] theorem State.setX_flag (v : Byte) (b : StatusBit) : (s.setX v).flag b = s.flag b := rfl

@[simp] theorem State.setY_a (v : Byte) : (s.setY v).a = s.a := rfl
@[simp] theorem State.setY_x (v : Byte) : (s.setY v).x = s.x := rfl
@[simp] theorem State.setY_y (v : Byte) : (s.setY v).y = v := rfl
@[simp] theorem State.setY_sp (v : Byte) : (s.setY v).sp = s.sp := rfl
@[simp] theorem State.setY_pc (v : Byte) : (s.setY v).pc = s.pc := rfl
@[simp] theorem State.setY_p (v : Byte) : (s.setY v).p = s.p := rfl
@[simp] theorem State.setY_mem (v : Byte) : (s.setY v).mem = s.mem := rfl
@[simp] theorem State.setY_read (v : Byte) (k : Addr) : (s.setY v).read k = s.read k := rfl
@[simp] theorem State.setY_flag (v : Byte) (b : StatusBit) : (s.setY v).flag b = s.flag b := rfl

@[simp] theorem State.setSP_a (v : Byte) : (s.setSP v).a = s.a := rfl
@[simp] theorem State.setSP_x (v : Byte) : (s.setSP v).x = s.x := rfl
@[simp] theorem State.setSP_y (v : Byte) : (s.setSP v).y = s.y := rfl
@[simp] theorem State.setSP_sp (v : Byte) : (s.setSP v).sp = v := rfl
@[simp] theorem State.setSP_pc (v : Byte) : (s.setSP v).pc = s.pc := rfl
@[simp] theorem State.setSP_p (v : Byte) : (s.setSP v).p = s.p := rfl
@[simp] theorem State.setSP_mem (v : Byte) : (s.setSP v).mem = s.mem := rfl
@[simp] theorem State.setSP_read (v : Byte) (k : Addr) : (s.setSP v).read k = s.read k := rfl
@[simp] theorem State.setSP_flag (v : Byte) (b : StatusBit) : (s.setSP v).flag b = s.flag b := rfl

@[simp] theorem State.setPC_a (v : Addr) : (s.setPC v).a = s.a := rfl
@[simp] theorem State.setPC_x (v : Addr) : (s.setPC v).x = s.x := rfl
@[simp] theorem State.setPC_y (v : Addr) : (s.setPC v).y = s.y := rfl
@[simp] theorem State.setPC_sp (v : Addr) : (s.setPC v).sp = s.sp := rfl
@[simp] theorem State.setPC_pc (v : Addr) : (s.setPC v).pc = v := rfl
@[simp] theorem State.setPC_p (v : Addr) : (s.setPC v).p = s.p := rfl
@[simp] theorem State.setPC_mem (v : Addr) : (s.setPC v).mem = s.mem := rfl
@[simp] theorem State.setPC_read (v : Addr) (k : Addr) : (s.setPC v).read k = s.read k := rfl
@[simp] theorem State.setPC_flag (v : Addr) (b : StatusBit) : (s.setPC v).flag b = s.flag b := rfl

@[simp] theorem State.setP_a (v : Byte) : (s.setP v).a = s.a := rfl
@[simp] theorem State.setP_x (v : Byte) : (s.setP v).x = s.x := rfl
@[simp] theorem State.setP_y (v : Byte) : (s.setP v).y = s.y := rfl
@[simp] theorem State.setP_sp (v : Byte) : (s.setP v).sp = s.sp := rfl
@[simp] theorem State.setP_pc (v : Byte) : (s.setP v).pc = s.pc := rfl
@[simp] theorem State.setP_p (v : Byte) : (s.setP v).p = v := rfl
@[simp] theorem State.setP_mem (v : Byte) : (s.setP v).mem = s.mem := rfl
@[simp] theorem State.setP_read (v : Byte) (k : Addr) : (s.setP v).read k = s.read k := rfl

@[simp] theorem State.write_a (k : Addr) (v : Byte) : (s.write k v).a = s.a := rfl
@[simp] theorem State.write_x (k : Addr) (v : Byte) : (s.write k v).x = s.x := rfl
@[simp] theorem State.write_y (k : Addr) (v : Byte) : (s.write k v).y = s.y := rfl
@[simp] theorem State.write_sp (k : Addr) (v : Byte) : (s.write k v).sp = s.sp := rfl
@[simp] theorem State.write_pc (k : Addr) (v : Byte) : (s.write k v).pc = s.pc := rfl
@[simp] theorem State.write_p (k : Addr) (v : Byte) : (s.write k v).p = s.p := rfl
@[simp] theorem State.write_mem (k : Addr) (v : Byte) : (s.write k v).mem = s.mem.setByteAt k.toNat v := rfl
@[simp] theorem State.write_flag (k : Addr) (v : Byte) (b : StatusBit) : (s.write k v).flag b = s.flag b := rfl

@[simp] theorem State.advance_a (len : Nat) : (s.advance len).a = s.a := rfl
@[simp] theorem State.advance_x (len : Nat) : (s.advance len).x = s.x := rfl
@[simp] theorem State.advance_y (len : Nat) : (s.advance len).y = s.y := rfl
@[simp] theorem State.advance_sp (len : Nat) : (s.advance len).sp = s.sp := rfl
@[simp] theorem State.advance_pc (len : Nat) : (s.advance len).pc = s.pc + BitVec.ofNat 16 len := rfl
@[simp] theorem State.advance_p (len : Nat) : (s.advance len).p = s.p := rfl
@[simp] theorem State.advance_mem (len : Nat) : (s.advance len).mem = s.mem := rfl
@[simp] theorem State.advance_read (len : Nat) (k : Addr) : (s.advance len).read k = s.read k := rfl
@[simp] theorem State.advance_flag (len : Nat) (b : StatusBit) : (s.advance len).flag b = s.flag b := rfl

@[simp] theorem State.setZN_a (v : Byte) : (s.setZN v).a = s.a := rfl
@[simp] theorem State.setZN_x (v : Byte) : (s.setZN v).x = s.x := rfl
@[simp] theorem State.setZN_y (v : Byte) : (s.setZN v).y = s.y := rfl
@[simp] theorem State.setZN_sp (v : Byte) : (s.setZN v).sp = s.sp := rfl
@[simp] theorem State.setZN_pc (v : Byte) : (s.setZN v).pc = s.pc := rfl
@[simp] theorem State.setZN_p (v : Byte) : (s.setZN v).p = Machine.setZN v s.p := rfl
@[simp] theorem State.setZN_mem (v : Byte) : (s.setZN v).mem = s.mem := rfl
@[simp] theorem State.setZN_read (v : Byte) (k : Addr) : (s.setZN v).read k = s.read k := rfl

@[simp] theorem State.setFlag_a (b : StatusBit) (v : Bool) : (s.setFlag b v).a = s.a := rfl
@[simp] theorem State.setFlag_x (b : StatusBit) (v : Bool) : (s.setFlag b v).x = s.x := rfl
@[simp] theorem State.setFlag_y (b : StatusBit) (v : Bool) : (s.setFlag b v).y = s.y := rfl
@[simp] theorem State.setFlag_sp (b : StatusBit) (v : Bool) : (s.setFlag b v).sp = s.sp := rfl
@[simp] theorem State.setFlag_pc (b : StatusBit) (v : Bool) : (s.setFlag b v).pc = s.pc := rfl
@[simp] theorem State.setFlag_p (b : StatusBit) (v : Bool) : (s.setFlag b v).p = setStatusBit s.p b v := rfl
@[simp] theorem State.setFlag_mem (b : StatusBit) (v : Bool) : (s.setFlag b v).mem = s.mem := rfl
@[simp] theorem State.setFlag_read (b : StatusBit) (v : Bool) (k : Addr) : (s.setFlag b v).read k = s.read k := rfl

end Sys2Proof.Machine
end

