-- ==== Sys2Proof/Laws/Flags.lean ====
section
/-! SUPPORT. The status bits after each flag computation, by name: what it sets, and that it leaves the rest. -/

namespace Sys2Proof.Machine

theorem StatusBit.index_lt (b : StatusBit) : b.index < 8 := by cases b <;> decide

theorem StatusBit.index_inj {b c : StatusBit} : b.index = c.index ↔ b = c := by
  cases b <;> cases c <;> decide

theorem StatusBit.getLsbD_mask (b c : StatusBit) : b.mask.getLsbD c.index = decide (b = c) := by
  cases b <;> cases c <;> rfl

/-- Everything a status bit write does to the bits. -/
@[simp] theorem statusBit_setStatusBit (p : Byte) (b c : StatusBit) (v : Bool) :
    statusBit (setStatusBit p b v) c = if b = c then v else statusBit p c := by
  have hm := StatusBit.getLsbD_mask b c
  have hc := c.index_lt
  by_cases h : b = c <;> cases v <;> simp_all [setStatusBit, statusBit]

theorem statusBit_setZN (v p : Byte) (c : StatusBit) :
    statusBit (setZN v p) c =
      if c = .negative then v.msb else if c = .zero then v == 0 else statusBit p c := by
  cases c <;> simp [setZN]

theorem statusBit_compareFlags (r m p : Byte) (c : StatusBit) :
    statusBit (compareFlags r m p) c =
      if c = .negative then (r - m).msb else if c = .zero then r == m
      else if c = .carry then m.ule r else statusBit p c := by
  cases c <;> simp [compareFlags]

theorem statusBit_shiftLeftFlags (v p : Byte) (c : StatusBit) :
    statusBit (shiftLeftFlags v p) c =
      if c = .negative then (v <<< 1).msb else if c = .zero then v <<< 1 == 0
      else if c = .carry then v.msb else statusBit p c := by
  cases c <;> simp [shiftLeftFlags, setZN]

theorem statusBit_pulledStatus (verbatim : Bool) (v : Byte) (c : StatusBit) :
    statusBit (pulledStatus verbatim v) c = if c = .stub ∧ verbatim = false then true else statusBit v c := by
  have hm := StatusBit.getLsbD_mask .stub c
  have hc := c.index_lt
  cases verbatim <;> cases c <;> simp_all [pulledStatus, statusBit]

/-- Two status bytes with the same bits are equal. -/
theorem status_ext {p q : Byte} (h : ∀ b, statusBit p b = statusBit q b) : p = q := by
  refine BitVec.eq_of_getLsbD_eq fun i hi => ?_
  have hb : ∃ b : StatusBit, b.index = i := by
    match i, hi with
    | 0, _ => exact ⟨.carry, rfl⟩
    | 1, _ => exact ⟨.zero, rfl⟩
    | 2, _ => exact ⟨.interruptMask, rfl⟩
    | 3, _ => exact ⟨.decimal, rfl⟩
    | 4, _ => exact ⟨.brk, rfl⟩
    | 5, _ => exact ⟨.stub, rfl⟩
    | 6, _ => exact ⟨.overflow, rfl⟩
    | 7, _ => exact ⟨.negative, rfl⟩
  obtain ⟨b, rfl⟩ := hb
  exact h b

end Sys2Proof.Machine
end

