-- ==== Sys2Proof/Laws/Memory.lean ====
section
/-! SUPPORT. The memory laws: a read after a write, and every memory operation keeps the canonical form. -/

namespace Sys2Proof.Machine

theorem Memory.byteAt_filter_ne {m : Memory} {k j : Nat} (h : j ≠ k) :
    Memory.byteAt (m.filter fun c => c.1 != k) j = m.byteAt j := by
  induction m with
  | nil => rfl
  | cons c m ih =>
    by_cases hc : c.1 = k
    · have hj : c.1 ≠ j := fun e => h (e.symm.trans hc)
      rw [List.filter_cons_of_neg (by simpa using hc), ih]
      simp [Memory.byteAt, hj]
    · rw [List.filter_cons_of_pos (by simpa using hc)]
      simp [Memory.byteAt, ih]

theorem Memory.byteAt_filter_self (m : Memory) (k : Nat) :
    Memory.byteAt (m.filter fun c => c.1 != k) k = Memory.unlisted := by
  induction m with
  | nil => rfl
  | cons c m ih =>
    by_cases hc : c.1 = k <;> simp [hc, Memory.byteAt, ih]

theorem Memory.byteAt_insertCell {m : Memory} {k : Nat} (v : Byte) (j : Nat) (hk : ∀ c ∈ m, c.1 ≠ k) :
    (Memory.insertCell m k v).byteAt j = if k = j then v else m.byteAt j := by
  induction m with
  | nil => rfl
  | cons c m ih =>
    have hc : c.1 ≠ k := hk c (by simp)
    have ih' := ih fun d hd => hk d (by simp [hd])
    by_cases hle : k ≤ c.1
    · simp [Memory.insertCell, hle, Memory.byteAt]
    · by_cases hj : c.1 = j
      · subst hj
        simp [Memory.insertCell, hle, Memory.byteAt, hc.symm]
      · simp [Memory.insertCell, hle, Memory.byteAt, hj, ih']

/-- Everything a byte write does to reads, of any memory. -/
theorem Memory.byteAt_setByteAt (m : Memory) (k : Nat) (v : Byte) (j : Nat) :
    (m.setByteAt k v).byteAt j = if k = j then v else m.byteAt j := by
  have hk : ∀ c ∈ m.filter (fun c => c.1 != k), c.1 ≠ k := fun c hc => by simpa using (List.mem_filter.mp hc).2
  have hself := m.byteAt_filter_self k
  by_cases hj : k = j
  · subst hj
    by_cases hv : v = Memory.unlisted <;> simp [Memory.setByteAt, hv, hself, Memory.byteAt_insertCell v _ hk]
  · have hne := Memory.byteAt_filter_ne (m := m) (Ne.symm hj)
    by_cases hv : v = Memory.unlisted <;> simp [Memory.setByteAt, hv, hj, hne, Memory.byteAt_insertCell v _ hk]

theorem Memory.mem_insertCell {m : Memory} {k : Nat} {v : Byte} {c : Host.Cell}
    (h : c ∈ Memory.insertCell m k v) : c = (k, v) ∨ c ∈ m := by
  induction m with
  | nil => simpa [Memory.insertCell] using h
  | cons d m ih =>
    by_cases hle : k ≤ d.1
    · simpa [Memory.insertCell, hle] using h
    · simp only [Memory.insertCell, hle, if_false, List.mem_cons] at h ⊢
      rcases h with h | h
      · exact .inr (.inl h)
      · exact (ih h).imp_right .inr

theorem Memory.pairwise_insertCell {m : Memory} {k : Nat} (v : Byte) (hk : ∀ c ∈ m, c.1 ≠ k)
    (h : m.Pairwise fun c d => c.1 < d.1) : (Memory.insertCell m k v).Pairwise fun c d => c.1 < d.1 := by
  induction m with
  | nil => simp [Memory.insertCell]
  | cons d m ih =>
    have hd : d.1 ≠ k := hk d (by simp)
    obtain ⟨hlt, hm⟩ := List.pairwise_cons.mp h
    by_cases hle : k ≤ d.1
    · have hkd : k < d.1 := lt_of_le_of_ne hle hd.symm
      simp only [Memory.insertCell, hle, if_true]
      refine List.pairwise_cons.mpr ⟨fun c hc => ?_, h⟩
      rcases List.mem_cons.mp hc with rfl | hc
      · exact hkd
      · exact hkd.trans (hlt c hc)
    · simp only [Memory.insertCell, hle, if_false]
      refine List.pairwise_cons.mpr ⟨fun c hc => ?_, ih (fun c hc => hk c (by simp [hc])) hm⟩
      rcases Memory.mem_insertCell hc with rfl | hc
      · exact not_le.mp hle
      · exact hlt c hc

/-- A byte write below 65536 keeps the canonical form. -/
theorem Memory.wf_setByteAt {m : Memory} {k : Nat} (v : Byte) (hk : k < 65536) (h : m.wf) : (m.setByteAt k v).wf := by
  have hp := h.1.filter fun c => c.1 != k
  have hb : ∀ c ∈ m.filter (fun c => c.1 != k), c.2 ≠ Memory.unlisted ∧ c.1 < 65536 :=
    fun c hc => h.2 c (List.mem_filter.mp hc).1
  have hne : ∀ c ∈ m.filter (fun c => c.1 != k), c.1 ≠ k := fun c hc => by simpa using (List.mem_filter.mp hc).2
  by_cases hv : v = Memory.unlisted
  · rw [Memory.setByteAt, if_pos hv]
    exact ⟨hp, hb⟩
  · simp only [Memory.setByteAt, hv, if_false]
    refine ⟨Memory.pairwise_insertCell v hne hp, fun c hc => ?_⟩
    rcases Memory.mem_insertCell hc with rfl | hc
    · exact ⟨hv, hk⟩
    · exact hb c hc

theorem State.wf_write {s : State} (k : Addr) (v : Byte) (h : s.mem.wf) : (s.write k v).mem.wf :=
  Memory.wf_setByteAt v k.isLt h

theorem State.wf_push8 {s : State} (v : Byte) (h : s.mem.wf) : (s.push8 v).mem.wf := State.wf_write _ v h

theorem State.wf_push16 {s : State} (w : Addr) (h : s.mem.wf) : (s.push16 w).mem.wf :=
  State.wf_push8 _ (State.wf_push8 _ h)

theorem State.wf_storeBytes {s : State} {k : Addr} (bytes : List Byte) (h : s.mem.wf) :
    (s.storeBytes k bytes).mem.wf := by
  induction bytes generalizing s k with
  | nil => exact h
  | cons b bytes ih => exact ih (State.wf_write k b h)

theorem wf_reset_mem : State.reset.mem.wf := by decide

end Sys2Proof.Machine
end

