-- ==== Sys2Proof/Laws/Ops.lean ====
section
/-! SUPPORT. What each shared register, memory and stack operation does, once each. -/

namespace Sys2Proof.Machine

/-- Everything a byte write does to reads. -/
@[simp] theorem State.read_write (s : State) (k j : Addr) (v : Byte) :
    (s.write k v).read j = if k = j then v else s.read j := by
  simp [State.read, State.write, Memory.byteAt_setByteAt, BitVec.toNat_inj]

theorem stackAddr_inj {p q : Byte} : stackAddr p = stackAddr q ↔ p = q := by
  constructor
  · intro h
    have := congrArg BitVec.toNat h
    simp only [stackAddr, BitVec.toNat_add, BitVec.toNat_setWidth] at this
    apply BitVec.eq_of_toNat_eq
    have hp := p.isLt
    have hq := q.isLt
    simp at this
    omega
  · rintro rfl; rfl

/-- A push writes one byte and SP. -/
theorem State.push8_eq (s : State) (v : Byte) :
    s.push8 v = { s with mem := s.mem.setByteAt (stackAddr s.sp).toNat v, sp := s.sp - 1 } := rfl

/-- A pull reads one byte and writes SP. -/
theorem State.pull8_eq (s : State) : s.pull8 = (s.read (stackAddr (s.sp + 1)), { s with sp := s.sp + 1 }) := rfl

/-- A 16-bit push writes two bytes and SP. -/
theorem State.push16_eq (s : State) (w : Addr) :
    s.push16 w =
      { s with
        mem := (s.mem.setByteAt (stackAddr s.sp).toNat (highByte w)).setByteAt (stackAddr (s.sp - 1)).toNat (lowByte w)
        sp := s.sp - 1 - 1 } := rfl

/-- A 16-bit pull reads two bytes and writes SP. -/
theorem State.pull16_eq (s : State) :
    s.pull16 = (hiLo (s.read (stackAddr (s.sp + 1 + 1))) (s.read (stackAddr (s.sp + 1))), { s with sp := s.sp + 1 + 1 }) :=
  rfl

@[simp] theorem hiLo_toNat (hi lo : Byte) : (hiLo hi lo).toNat = hi.toNat * 256 + lo.toNat := by
  have h := hi.isLt
  have l := lo.isLt
  simp only [hiLo, BitVec.toNat_ofNat]
  omega

/-- A 16-bit value is its two bytes. -/
@[simp] theorem hiLo_high_low (w : Addr) : hiLo (highByte w) (lowByte w) = w := by
  have h := w.isLt
  apply BitVec.eq_of_toNat_eq
  simp only [hiLo_toNat, highByte, lowByte, BitVec.toNat_ofNat]
  omega

@[simp] theorem highByte_hiLo (hi lo : Byte) : highByte (hiLo hi lo) = hi := by
  have h := hi.isLt
  have l := lo.isLt
  apply BitVec.eq_of_toNat_eq
  simp only [highByte, BitVec.toNat_ofNat, hiLo_toNat]
  omega

@[simp] theorem lowByte_hiLo (hi lo : Byte) : lowByte (hiLo hi lo) = lo := by
  have h := hi.isLt
  have l := lo.isLt
  apply BitVec.eq_of_toNat_eq
  simp only [lowByte, BitVec.toNat_ofNat, hiLo_toNat]
  omega

/-- The registers that storing bytes leaves. -/
theorem State.storeBytes_frame (s : State) (k : Addr) (bytes : List Byte) :
    s.storeBytes k bytes = { s with mem := (s.storeBytes k bytes).mem } := by
  induction bytes generalizing s k with
  | nil => rfl
  | cons b bytes ih => rw [State.storeBytes, ih (s.write k b) (k + 1)]; rfl

end Sys2Proof.Machine
end

