-- ==== Sys2Proof/Laws/Decode.lean ====
section
/-! SUPPORT. The encoding tables agree with each other, and the decoder on the bytes a step fetches. -/

namespace Sys2Proof

def AddrMode.all : List AddrMode :=
  [.implied, .accumulator, .immediate, .zeroPage, .zeroPageX, .zeroPageY, .relative, .absolute, .absoluteX, .absoluteY,
   .indirect, .indirectX, .indirectY]

def Operation.all : List Operation :=
  [.lda, .ldx, .ldy, .sta, .stx, .sty, .tax, .txa, .tay, .tya, .tsx, .txs, .inc, .dec, .inx,
   .iny, .dex, .dey, .asl, .cmp, .cpx, .cpy, .sec, .clc, .sei, .cli, .sed, .cld, .clv, .pha,
   .php, .pla, .plp, .jmp, .jsr, .rts, .bcc, .bcs, .bne, .beq, .bvc, .bvs, .bpl, .bmi, .nop]

theorem AddrMode.mem_all (m : AddrMode) : m ∈ AddrMode.all := by cases m <;> decide

theorem Operation.mem_all (o : Operation) : o ∈ Operation.all := by cases o <;> decide

/-- The catalog (R100) has an operation at a mode exactly where the operation's own rule names the mode. -/
theorem opcodeOf_isSome (o : Operation) (m : AddrMode) : (opcodeOf o m).isSome = o.modes.contains m := by
  have h : ∀ o ∈ Operation.all, ∀ m ∈ AddrMode.all, (opcodeOf o m).isSome = o.modes.contains m := by decide +kernel
  exact h o o.mem_all m m.mem_all

theorem byte_beq (a b : Byte) : (a == b) = a.toNat.beq b.toNat := by
  rw [Bool.eq_iff_iff]
  simp [BitVec.toNat_inj]

/-- The catalog (R100) lacks exactly the bytes that R101 lists. -/
theorem lookup_isNone (op : Byte) : (lookup defaultCatalog op).isNone = undefinedOpcodes.contains op := by
  have h : ∀ n < 256, (defaultCatalog.find? fun r => r.opcode.toNat.beq n).isNone
      = undefinedOpcodes.any fun b => n.beq b.toNat := by decide +kernel
  have hl := h op.toNat op.isLt
  simpa only [lookup, List.contains_eq_any_beq, byte_beq] using hl

/-- An instruction with an operation is that operation at its form. -/
theorem instr_of_operation {i : Instr} {o : Operation} (h : i.operation = some o) : i = o.instr i.form := by
  cases i <;> simp_all [Instr.operation, Instr.form] <;> subst h <;> rfl

@[simp] theorem operation_instr (o : Operation) (f : Form) : (o.instr f).operation = some o := by
  cases o <;> rfl

@[simp] theorem form_instr (o : Operation) (f : Form) : (o.instr f).form = f := by
  cases o <;> rfl

@[simp] theorem mode_form (m : AddrMode) (b1 b2 : Byte) : (m.form b1 b2).mode = m := by
  cases m <;> rfl

/-- A form has as many operand bytes as its mode. -/
theorem bytes_length (f : Form) : f.bytes.length = f.mode.operandBytes := by
  cases f <;> rfl

theorem encodeOperation_eq {o : Operation} {f : Form} {op : Byte} (h : opcodeOf o f.mode = some op) :
    encodeOperation o f = op :: f.bytes := by
  simp [encodeOperation, h]

/-- Of three bytes the decoder makes what fetch makes of them, whatever the catalog. -/
theorem decodeWith_three (cat : List CatalogRow) (op b1 b2 : Byte) :
    ∃ rest, decodeWith cat [op, b1, b2] = .ok (decodeBytes cat op b1 b2, rest) := by
  simp only [decodeWith, decodeBytes]
  cases lookup cat op with
  | none => exact ⟨_, rfl⟩
  | some r =>
    have hn : r.mode.operandBytes ≤ 2 := by cases r.mode <;> decide
    exact ⟨_, by simp only [List.length_cons, List.length_nil, if_pos hn]; rfl⟩

end Sys2Proof
end

