-- ==== Sys2Proof/Laws/Operands.lean ====
section
/-! SUPPORT. What resolving does, and what each shared handler can answer. -/

namespace Sys2Proof.Machine

/-- A form resolves to the kind of operand of its mode, whatever the state and the parameters. -/
@[simp] theorem resolve_kind (cfg : Config) (f : Form) (s : State) : (resolve cfg f s).kind = f.mode.kind := by
  cases f <;> rfl

theorem operandValue_isSome (o : Operand) (s : State) : (operandValue o s).isSome = takesValue o.kind := by
  cases o <;> rfl

/-- If a no-operand operation answers a next state, its operand is none and the state is its effect, advanced. -/
theorem impliedHandler_next {g : State → State} {o : Operand} {len : Nat} {s t : State}
    (h : impliedHandler g o len s = .next t) : o = .none ∧ t = (g s).advance len := by
  cases o <;> simp_all [impliedHandler, reportContractViolation]

/-- If a value operation answers a next state, its operand has a value and the state is the effect of it, advanced. -/
theorem valueHandler_next {g : Byte → State → State} {o : Operand} {len : Nat} {s t : State}
    (h : valueHandler g o len s = .next t) : ∃ v, operandValue o s = some v ∧ t = (g v s).advance len := by
  cases o <;> simp_all [valueHandler, operandValue, reportContractViolation]

/-- If a store answers a next state, its operand is an address and one byte was written there. -/
theorem storeHandler_next {g : State → Byte} {o : Operand} {len : Nat} {s t : State}
    (h : storeHandler g o len s = .next t) : ∃ k, o = .addr k ∧ t = (s.write k (g s)).advance len := by
  cases o <;> simp_all [storeHandler, reportContractViolation]

/-- If a memory counter answers a next state, its operand is an address, its byte was replaced and Z and N set. -/
theorem memoryCounterHandler_next {g : Byte → Byte} {o : Operand} {len : Nat} {s t : State}
    (h : memoryCounterHandler g o len s = .next t) :
    ∃ k, o = .addr k ∧ t = ((s.write k (g (s.read k))).setZN (g (s.read k))).advance len := by
  cases o <;> simp_all [memoryCounterHandler, reportContractViolation]

/-- If a branch answers a next state, its operand is an address and only PC was written. -/
theorem branchHandler_next {b : StatusBit} {v : Bool} {o : Operand} {len : Nat} {s t : State}
    (h : branchHandler b v o len s = .next t) :
    ∃ k, o = .addr k ∧ t = if s.flag b = v then s.setPC k else s.advance len := by
  cases o <;> simp_all [branchHandler, reportContractViolation]

end Sys2Proof.Machine
end

