-- ==== Sys2Proof/Laws/Engine.lean ====
section
/-! SUPPORT. `exec` and `step` are the engine at the default parameters, and a host's run by induction. -/

namespace Sys2Proof.Machine

theorem exec_eq_execWith (i : Instr) (s : State) : exec i s = execWith Config.default i s := by
  cases i <;> rfl

theorem step_eq_stepWith (s : State) : step s = stepWith Config.default s := exec_eq_execWith _ s

/-- What holds at construct and is kept by every load and every step holds of every state a host can bring about. -/
theorem Reachable.induct {cfg : Config} {Good : State → Prop} (hreset : Good State.reset)
    (hload : ∀ addr bytes s t, Good s → load cfg.loadOverrun addr bytes s = some t → Good t)
    (hstep : ∀ s t, Good s → stepWith cfg s = .next t → Good t) {s : State} (h : Reachable cfg s) : Good s := by
  induction h with
  | construct => exact hreset
  | perform c hs ih =>
    cases c with
    | construct => exact hreset
    | load addr bytes =>
      simp only [Machine.perform]
      split
      · exact hload _ _ _ _ ih ‹_›
      · exact ih
    | step =>
      simp only [Machine.perform]
      split
      · exact hstep _ _ ih ‹_›
      · exact ih
      · exact ih
    | inspect addr => exact ih

end Sys2Proof.Machine
end

