-- ==== Sys2Proof/Laws/PerInstr.lean ====
section
/-! SUPPORT. Per-instruction facts about the syntax. EncodedLength: the bytes of a well-formed instruction are as many as
its length (R83). -/

namespace Sys2Proof.Laws.EncodedLength

/-- A well-formed instruction encodes to as many bytes as its length. -/
def Statement (i : Instr) : Prop := i.WellFormed → (encode i).length = i.length

theorem of_operation {i : Instr} {o : Operation} {f : Form} (hw : i.check = none → o.modes.contains f.mode = true)
    (henc : ∀ op, opcodeOf o f.mode = some op → encode i = op :: f.bytes) (hl : i.length = f.length) :
    Statement i := by
  intro h
  obtain ⟨op, hop⟩ := Option.isSome_iff_exists.mp ((opcodeOf_isSome o f.mode).trans (hw h))
  simp [henc op hop, hl, bytes_length, Form.length, Nat.add_comm]

theorem check_eq_none {b : Bool} (h : (if b then (none : Option IllFormed) else some .modeNotOfOperation) = none) :
    b = true := by
  cases b <;> simp_all

theorem lda (f : Form) : Statement (.lda f) :=
  of_operation (o := .lda) check_eq_none (fun _ => encodeOperation_eq) rfl
theorem ldx (f : Form) : Statement (.ldx f) :=
  of_operation (o := .ldx) check_eq_none (fun _ => encodeOperation_eq) rfl
theorem ldy (f : Form) : Statement (.ldy f) :=
  of_operation (o := .ldy) check_eq_none (fun _ => encodeOperation_eq) rfl
theorem sta (f : Form) : Statement (.sta f) :=
  of_operation (o := .sta) check_eq_none (fun _ => encodeOperation_eq) rfl
theorem stx (f : Form) : Statement (.stx f) :=
  of_operation (o := .stx) check_eq_none (fun _ => encodeOperation_eq) rfl
theorem sty (f : Form) : Statement (.sty f) :=
  of_operation (o := .sty) check_eq_none (fun _ => encodeOperation_eq) rfl
theorem tax (f : Form) : Statement (.tax f) :=
  of_operation (o := .tax) check_eq_none (fun _ => encodeOperation_eq) rfl
theorem txa (f : Form) : Statement (.txa f) :=
  of_operation (o := .txa) check_eq_none (fun _ => encodeOperation_eq) rfl
theorem tay (f : Form) : Statement (.tay f) :=
  of_operation (o := .tay) check_eq_none (fun _ => encodeOperation_eq) rfl
theorem tya (f : Form) : Statement (.tya f) :=
  of_operation (o := .tya) check_eq_none (fun _ => encodeOperation_eq) rfl
theorem tsx (f : Form) : Statement (.tsx f) :=
  of_operation (o := .tsx) check_eq_none (fun _ => encodeOperation_eq) rfl
theorem txs (f : Form) : Statement (.txs f) :=
  of_operation (o := .txs) check_eq_none (fun _ => encodeOperation_eq) rfl
theorem inc (f : Form) : Statement (.inc f) :=
  of_operation (o := .inc) check_eq_none (fun _ => encodeOperation_eq) rfl
theorem dec (f : Form) : Statement (.dec f) :=
  of_operation (o := .dec) check_eq_none (fun _ => encodeOperation_eq) rfl
theorem inx (f : Form) : Statement (.inx f) :=
  of_operation (o := .inx) check_eq_none (fun _ => encodeOperation_eq) rfl
theorem iny (f : Form) : Statement (.iny f) :=
  of_operation (o := .iny) check_eq_none (fun _ => encodeOperation_eq) rfl
theorem dex (f : Form) : Statement (.dex f) :=
  of_operation (o := .dex) check_eq_none (fun _ => encodeOperation_eq) rfl
theorem dey (f : Form) : Statement (.dey f) :=
  of_operation (o := .dey) check_eq_none (fun _ => encodeOperation_eq) rfl
theorem asl (f : Form) : Statement (.asl f) :=
  of_operation (o := .asl) check_eq_none (fun _ => encodeOperation_eq) rfl
theorem cmp (f : Form) : Statement (.cmp f) :=
  of_operation (o := .cmp) check_eq_none (fun _ => encodeOperation_eq) rfl
theorem cpx (f : Form) : Statement (.cpx f) :=
  of_operation (o := .cpx) check_eq_none (fun _ => encodeOperation_eq) rfl
theorem cpy (f : Form) : Statement (.cpy f) :=
  of_operation (o := .cpy) check_eq_none (fun _ => encodeOperation_eq) rfl
theorem sec (f : Form) : Statement (.sec f) :=
  of_operation (o := .sec) check_eq_none (fun _ => encodeOperation_eq) rfl
theorem clc (f : Form) : Statement (.clc f) :=
  of_operation (o := .clc) check_eq_none (fun _ => encodeOperation_eq) rfl
theorem sei (f : Form) : Statement (.sei f) :=
  of_operation (o := .sei) check_eq_none (fun _ => encodeOperation_eq) rfl
theorem cli (f : Form) : Statement (.cli f) :=
  of_operation (o := .cli) check_eq_none (fun _ => encodeOperation_eq) rfl
theorem sed (f : Form) : Statement (.sed f) :=
  of_operation (o := .sed) check_eq_none (fun _ => encodeOperation_eq) rfl
theorem cld (f : Form) : Statement (.cld f) :=
  of_operation (o := .cld) check_eq_none (fun _ => encodeOperation_eq) rfl
theorem clv (f : Form) : Statement (.clv f) :=
  of_operation (o := .clv) check_eq_none (fun _ => encodeOperation_eq) rfl
theorem pha (f : Form) : Statement (.pha f) :=
  of_operation (o := .pha) check_eq_none (fun _ => encodeOperation_eq) rfl
theorem php (f : Form) : Statement (.php f) :=
  of_operation (o := .php) check_eq_none (fun _ => encodeOperation_eq) rfl
theorem pla (f : Form) : Statement (.pla f) :=
  of_operation (o := .pla) check_eq_none (fun _ => encodeOperation_eq) rfl
theorem plp (f : Form) : Statement (.plp f) :=
  of_operation (o := .plp) check_eq_none (fun _ => encodeOperation_eq) rfl
theorem jmp (f : Form) : Statement (.jmp f) :=
  of_operation (o := .jmp) check_eq_none (fun _ => encodeOperation_eq) rfl
theorem jsr (f : Form) : Statement (.jsr f) :=
  of_operation (o := .jsr) check_eq_none (fun _ => encodeOperation_eq) rfl
theorem rts (f : Form) : Statement (.rts f) :=
  of_operation (o := .rts) check_eq_none (fun _ => encodeOperation_eq) rfl
theorem bcc (f : Form) : Statement (.bcc f) :=
  of_operation (o := .bcc) check_eq_none (fun _ => encodeOperation_eq) rfl
theorem bcs (f : Form) : Statement (.bcs f) :=
  of_operation (o := .bcs) check_eq_none (fun _ => encodeOperation_eq) rfl
theorem bne (f : Form) : Statement (.bne f) :=
  of_operation (o := .bne) check_eq_none (fun _ => encodeOperation_eq) rfl
theorem beq (f : Form) : Statement (.beq f) :=
  of_operation (o := .beq) check_eq_none (fun _ => encodeOperation_eq) rfl
theorem bvc (f : Form) : Statement (.bvc f) :=
  of_operation (o := .bvc) check_eq_none (fun _ => encodeOperation_eq) rfl
theorem bvs (f : Form) : Statement (.bvs f) :=
  of_operation (o := .bvs) check_eq_none (fun _ => encodeOperation_eq) rfl
theorem bpl (f : Form) : Statement (.bpl f) :=
  of_operation (o := .bpl) check_eq_none (fun _ => encodeOperation_eq) rfl
theorem bmi (f : Form) : Statement (.bmi f) :=
  of_operation (o := .bmi) check_eq_none (fun _ => encodeOperation_eq) rfl
theorem nop (f : Form) : Statement (.nop f) :=
  of_operation (o := .nop) check_eq_none (fun _ => encodeOperation_eq) rfl
theorem undefined (op : Byte) : Statement (.undefined op) := fun _ => rfl

end Sys2Proof.Laws.EncodedLength
end

