-- ==== Sys2Proof/Tests/Slice0.lean ====
section
/-! SUPPORT. The model's own tests. Their expected values are the spec's own examples and vectors (95_test_vectors.md; the
ids W1, LD1, … are that file's), and for each statement with hypotheses a witness that meets them. -/

namespace Sys2Proof.Tests

open Sys2Proof Sys2Proof.Machine

/-! ## Helpers -/

/-- The state after one step, if there is one. -/
def after (s : State) : Option State :=
  match step s with
  | .next t => some t
  | .fault _ => none
  | .refused _ => none

/-- What a step refuses with, if it does. -/
def refusal (r : Result) : Option Refusal :=
  match r with
  | .refused r => some r
  | .next _ => none
  | .fault _ => none

/-- What a step faults with, if it does. -/
def faultOf (r : Result) : Option Fault :=
  match r with
  | .fault r => some r
  | .next _ => none
  | .refused _ => none

/-- The next state of an outcome, if it is one. -/
def nextOf (r : Result) : Option State :=
  match r with
  | .next t => some t
  | .fault _ => none
  | .refused _ => none

/-- The state with these bytes at PC. -/
def withCode (s : State) (bytes : List Byte) : State := s.storeBytes s.pc bytes

/-! ## Well-formedness: each check refuses an ill-formed term -/

theorem test_wellformed_refuses_store_immediate : (Instr.sta (.immediate 0x00)).check = some .modeNotOfOperation := by decide
theorem test_wellformed_refuses_transfer_operand : (Instr.tax (.zeroPage 0x10)).check = some .modeNotOfOperation := by decide
theorem test_wellformed_refuses_store_x_indexed_by_x :
    (Instr.stx (.zeroPageX 0x10)).check = some .modeNotOfOperation := by decide
theorem test_wellformed_refuses_defined_byte_as_undefined :
    (Instr.undefined 0xA2).check = some .opcodeIsDefined := by decide
theorem test_wellformed_accepts : (Instr.ldx (.zeroPageY 0xF0)).WellFormed ∧ (Instr.undefined 0x69).WellFormed := by decide

/-! ## Decoding: for every constructor a word from the Encoding lines of its own rule (R120 to R270, R101) -/

/-- Loads, stores and transfers. -/
def wordsA : List (List Byte × Instr) :=
  [([0xA1, 0xF0], .lda (.indirectX 0xF0)), ([0xB1, 0x30], .lda (.indirectY 0x30)),
   ([0xB9, 0xF0, 0xFF], .lda (.absoluteY 0xFFF0)), ([0xA2, 0xFF], .ldx (.immediate 0xFF)),
   ([0xB6, 0xF0], .ldx (.zeroPageY 0xF0)), ([0xBC, 0x00, 0x02], .ldy (.absoluteX 0x0200)),
   ([0x8D, 0x34, 0x12], .sta (.absolute 0x1234)), ([0x8E, 0xFF, 0x01], .stx (.absolute 0x01FF)),
   ([0x94, 0x10], .sty (.zeroPageX 0x10)), ([0xAA], .tax .implied), ([0x8A], .txa .implied), ([0xA8], .tay .implied),
   ([0x98], .tya .implied), ([0xBA], .tsx .implied), ([0x9A], .txs .implied)]

/-- Counters, the shift and compares. -/
def wordsB : List (List Byte × Instr) :=
  [([0xE6, 0x10], .inc (.zeroPage 0x10)), ([0xCE, 0x00, 0x03], .dec (.absolute 0x0300)), ([0xE8], .inx .implied),
   ([0xC8], .iny .implied), ([0xCA], .dex .implied), ([0x88], .dey .implied), ([0x0A], .asl .accumulator),
   ([0x1E, 0xF0, 0x12], .asl (.absoluteX 0x12F0)), ([0xC9, 0x02], .cmp (.immediate 0x02)),
   ([0xEC, 0x00, 0x03], .cpx (.absolute 0x0300)), ([0xC4, 0x20], .cpy (.zeroPage 0x20))]

/-- Flags, stack, control flow, no-operation, undefined. -/
def wordsC : List (List Byte × Instr) :=
  [([0x38], .sec .implied), ([0x18], .clc .implied), ([0x78], .sei .implied), ([0x58], .cli .implied),
   ([0xF8], .sed .implied), ([0xD8], .cld .implied), ([0xB8], .clv .implied), ([0x48], .pha .implied),
   ([0x08], .php .implied), ([0x68], .pla .implied), ([0x28], .plp .implied), ([0x4C, 0x34, 0x12], .jmp (.absolute 0x1234)),
   ([0x6C, 0xFF, 0x12], .jmp (.indirect 0x12FF)), ([0x20, 0x09, 0x06], .jsr (.absolute 0x0609)), ([0x60], .rts .implied),
   ([0x90, 0x04], .bcc (.relative 0x04)), ([0xB0, 0xFE], .bcs (.relative 0xFE)), ([0xD0, 0xFB], .bne (.relative 0xFB)),
   ([0xF0, 0x00], .beq (.relative 0x00)), ([0x50, 0x80], .bvc (.relative 0x80)), ([0x70, 0x10], .bvs (.relative 0x10)),
   ([0x10, 0x7F], .bpl (.relative 0x7F)), ([0x30, 0x80], .bmi (.relative 0x80)), ([0xEA], .nop .implied),
   ([0x69], .undefined 0x69)]

theorem test_decode_loads_stores_transfers : ∀ e ∈ wordsA, decode e.1 = .ok (e.2, []) ∧ encode e.2 = e.1 := by decide +kernel
theorem test_decode_counters_shift_compares :
    ∀ e ∈ wordsB, decode e.1 = .ok (e.2, []) ∧ encode e.2 = e.1 := by decide +kernel
theorem test_decode_flags_stack_control : ∀ e ∈ wordsC, decode e.1 = .ok (e.2, []) ∧ encode e.2 = e.1 := by decide +kernel

theorem test_decode_rejects_no_byte : decode [] = .error .noOpcodeByte := by decide
theorem test_decode_rejects_missing_operand : decode [0x20, 0x09] = .error (.operandBytesMissing 0x20) := by decide

/-- The opcode table's own numbering: bit 0 of the word is bit 0 of the opcode byte. -/
theorem test_decodeTableWord :
    decodeTableWord 24 0x1234AD = some (.lda (.absolute 0x1234)) ∧ decodeTableWord 8 0x20 = some (.jsr (.absolute 0x0000)) ∧
    decodeTableWord 16 0x33B5 = some (.lda (.zeroPageX 0x33)) ∧ decodeTableWord 8 0x40 = some (.undefined 0x40) := by decide

theorem test_withFetchWord :
    (after (State.reset.withFetchWord 16 0xFFA2)).map (fun t => (t.x, t.pc)) = some (0xFF, 0x0602) := by decide

/-! ## One step of each instruction -/

theorem test_lda_clears_negative_keeps_carry :   -- LD1
    (after (withCode { State.reset with a := 0x55, p := 0xA1 } [0xA9, 0x00])).map (fun t => (t.a, t.p, t.pc))
      = some (0x00, 0x23, 0x0602) := by decide
theorem test_lda_indirectX_default_reads_the_address_itself :   -- AM6
    (after (withCode (State.storeBytes { State.reset with x := 0x20 } 0x0010 [0x34, 0x12]) [0xA1, 0xF0])).map (·.a)
      = some 0x34 := by decide
theorem test_ldx_negative :   -- W1
    (after (withCode State.reset [0xA2, 0xFF])).map (fun t => (t.x, t.flag .zero, t.flag .negative))
      = some (0xFF, false, true) := by decide
theorem test_ldx_absoluteY_wraps :   -- LD7
    (after (withCode (State.storeBytes { State.reset with y := 0x02 } 0x0001 [0x80]) [0xBE, 0xFF, 0xFF])).map (·.x)
      = some 0x80 := by decide
theorem test_ldy_zeroPageX_wraps_in_page_zero :   -- LD8, the byte at 0x0101 set apart
    (after (withCode (State.storeBytes { State.reset with x := 0x03 } 0x0101 [0x55]) [0xB4, 0xFE])).map
      (fun t => (t.y, t.flag .zero)) = some (0x00, true) := by decide
theorem test_ldy_absoluteX :   -- LD6
    (after (withCode (State.storeBytes { State.reset with x := 0x05 } 0x0205 [0x01]) [0xBC, 0x00, 0x02])).map
      (fun t => (t.y, t.pc)) = some (0x01, 0x0603) := by decide
theorem test_sta_zeroPageX_wraps :   -- ST1
    (after (withCode { State.reset with x := 0x02, a := 0x11, p := 0x22 } [0x95, 0xFF])).map
      (fun t => (t.read 0x0001, t.p, t.pc)) = some (0x11, 0x22, 0x0602) := by decide
theorem test_sta_indirectY :   -- ST2
    (after (withCode (State.storeBytes { State.reset with y := 0x03, a := 0x99 } 0x0010 [0x00, 0x02]) [0x91, 0x10])).map
      (fun t => t.read 0x0203) = some 0x99 := by decide
theorem test_stx_zeroPageY :   -- W2
    (after (withCode { State.reset with x := 0x71, y := 0x22 } [0x96, 0x33])).map (fun t => (t.read 0x0055, t.p))
      = some (0x71, 0x20) := by decide
theorem test_sty_absolute :   -- ST4
    (after (withCode { State.reset with y := 0x80 } [0x8C, 0x00, 0x04])).map (fun t => (t.read 0x0400, t.p, t.pc))
      = some (0x80, 0x20, 0x0603) := by decide
theorem test_tax : (after (withCode { State.reset with x := 0x12 } [0xAA])).map (fun t => (t.x, t.p))
    = some (0x00, 0x22) := by decide   -- TR1
theorem test_txa : (after (withCode { State.reset with x := 0x80, p := 0x22 } [0x8A])).map (fun t => (t.a, t.p))
    = some (0x80, 0xA0) := by decide   -- TR2
theorem test_tay : (after (withCode { State.reset with a := 0x01, p := 0xA2 } [0xA8])).map (fun t => (t.y, t.p))
    = some (0x01, 0x20) := by decide   -- TR3
theorem test_tya : (after (withCode { State.reset with y := 0xFF } [0x98])).map (fun t => (t.a, t.flag .negative))
    = some (0xFF, true) := by decide   -- TR4
theorem test_tsx_sets_no_flag : (after (withCode { State.reset with sp := 0xFD, p := 0x22 } [0xBA])).map
    (fun t => (t.x, t.p)) = some (0xFD, 0x22) := by decide   -- TR6
theorem test_txs : (after (withCode { State.reset with x := 0x80 } [0x9A])).map (fun t => (t.sp, t.p))
    = some (0x80, 0x20) := by decide   -- TR7
theorem test_inc_wraps_keeps_carry :   -- ID1
    (after (withCode (State.storeBytes { State.reset with p := 0x21 } 0x0010 [0xFF]) [0xE6, 0x10])).map
      (fun t => (t.read 0x0010, t.p)) = some (0x00, 0x23) := by decide
theorem test_inc_absoluteX_wraps :   -- ID4
    (after (withCode (State.storeBytes { State.reset with x := 0x01 } 0x0000 [0x7F]) [0xFE, 0xFF, 0xFF])).map
      (fun t => (t.read 0x0000, t.flag .negative)) = some (0x80, true) := by decide
theorem test_dec_wraps_keeps_overflow :   -- ID9
    (after (withCode { State.reset with p := 0x60 } [0xCE, 0x00, 0x03])).map (fun t => (t.read 0x0300, t.p))
      = some (0xFF, 0xE0) := by decide
theorem test_inx : (after (withCode { State.reset with x := 0xFF } [0xE8])).map (fun t => (t.x, t.p))
    = some (0x00, 0x22) := by decide   -- ID5
theorem test_iny : (after (withCode { State.reset with y := 0x7F } [0xC8])).map (fun t => (t.y, t.p))
    = some (0x80, 0xA0) := by decide   -- ID6
theorem test_dex : (after (withCode State.reset [0xCA])).map (fun t => (t.x, t.p)) = some (0xFF, 0xA0) := by decide   -- ID7
theorem test_dey : (after (withCode { State.reset with y := 0x01 } [0x88])).map (fun t => (t.y, t.p))
    = some (0x00, 0x22) := by decide   -- ID8
theorem test_asl_accumulator : (after (withCode { State.reset with a := 0x80 } [0x0A])).map (fun t => (t.a, t.p))
    = some (0x00, 0x23) := by decide   -- SH1
theorem test_asl_absoluteX :   -- SH7
    (after (withCode (State.storeBytes { State.reset with x := 0x20 } 0x1310 [0x81]) [0x1E, 0xF0, 0x12])).map
      (fun t => (t.read 0x1310, t.p)) = some (0x02, 0x21) := by decide
theorem test_cmp_is_unsigned :   -- CP3
    (after (withCode { State.reset with a := 0x80 } [0xC9, 0x00])).map (fun t => (t.flag .carry, t.flag .zero, t.flag .negative))
      = some (true, false, true) := by decide
theorem test_cmp_borrow :   -- CP5, V kept
    (after (withCode { State.reset with a := 0x01, p := 0x60 } [0xC9, 0xFF])).map (fun t => (t.a, t.p))
      = some (0x01, 0x60) := by decide
theorem test_cpx :   -- CP10
    (after (withCode (State.storeBytes { State.reset with x := 0x7F } 0x0300 [0x80]) [0xEC, 0x00, 0x03])).map
      (fun t => (t.flag .carry, t.flag .zero, t.flag .negative)) = some (false, false, true) := by decide
theorem test_cpy :   -- CP8
    (after (withCode (State.storeBytes { State.reset with y := 0x90 } 0x0020 [0x10]) [0xC4, 0x20])).map
      (fun t => (t.flag .carry, t.flag .zero, t.flag .negative)) = some (true, false, true) := by decide

theorem test_sec : (after (withCode State.reset [0x38])).map (·.p) = some 0x21 := by decide   -- FL1
theorem test_clc : (after (withCode { State.reset with p := 0xFF } [0x18])).map (·.p) = some 0xFE := by decide   -- FL2
theorem test_sei : (after (withCode State.reset [0x78])).map (·.p) = some 0x24 := by decide   -- FL3
theorem test_cli : (after (withCode { State.reset with p := 0xFF } [0x58])).map (·.p) = some 0xFB := by decide   -- FL4
theorem test_sed : (after (withCode State.reset [0xF8])).map (·.p) = some 0x28 := by decide   -- FL5
theorem test_cld : (after (withCode { State.reset with p := 0xFF } [0xD8])).map (·.p) = some 0xF7 := by decide   -- FL6
theorem test_clv : (after (withCode { State.reset with p := 0xFF } [0xB8])).map (·.p) = some 0xBF := by decide   -- FL7
theorem test_pha_at_zero :   -- SK2
    (after (withCode { State.reset with sp := 0x00, a := 0x13 } [0x48])).map (fun t => (t.read 0x0100, t.sp))
      = some (0x13, 0xFF) := by decide
theorem test_php :   -- SK4
    (after (withCode { State.reset with sp := 0x80, p := 0xE3 } [0x08])).map (fun t => (t.read 0x0180, t.sp))
      = some (0xE3, 0x7F) := by decide
theorem test_pla :   -- SK5, the byte at 0x01FC set apart, P before with its stub bit 1 (log entry 26)
    (after (withCode (State.storeBytes { State.reset with sp := 0xFC, p := 0xA0 } 0x01FC [0x55]) [0x68])).map
      (fun t => (t.a, t.sp, t.p)) = some (0x00, 0xFD, 0x22) := by decide
theorem test_pla_across_the_wrap :   -- SK6
    (after (withCode (State.storeBytes State.reset 0x0100 [0x90]) [0x68])).map (fun t => (t.a, t.sp)) = some (0x90, 0x00) := by decide
theorem test_plp_keeps_the_stub :   -- SK7
    (after (withCode (State.storeBytes { State.reset with sp := 0xFE } 0x01FF [0xC3]) [0x28])).map (fun t => (t.p, t.sp))
      = some (0xE3, 0xFF) := by decide
theorem test_plp_verbatim :   -- SK8
    (nextOf (stepWith { Config.default with plpStubVerbatim := true } (withCode { State.reset with sp := 0xFE } [0x28]))).map
      (·.p) = some 0x00 := by decide
theorem test_jmp : (after (withCode State.reset [0x4C, 0x34, 0x12])).map (·.pc) = some 0x1234 := by decide   -- JP1
theorem test_jmp_indirect_has_no_page_wrap :   -- AM7
    (after (withCode (State.storeBytes (State.storeBytes State.reset 0x12FF [0x34, 0x12]) 0x1200 [0x56]) [0x6C, 0xFF, 0x12])).map
      (·.pc) = some 0x1234 := by decide
theorem test_jsr_at_zero :   -- JS2
    (after (withCode { State.reset with sp := 0x00 } [0x20, 0x00, 0x10])).map
      (fun t => (t.read 0x0100, t.read 0x01FF, t.sp, t.pc)) = some (0x06, 0x02, 0xFE, 0x1000) := by decide
theorem test_rts :   -- RT1
    (after (withCode (State.storeBytes { State.reset with sp := 0xFD } 0x01FE [0x04, 0x06]) [0x60])).map (fun t => (t.pc, t.sp))
      = some (0x0605, 0xFF) := by decide
theorem test_rts_across_the_wrap :   -- RT2
    (after (withCode (State.storeBytes (State.storeBytes { State.reset with sp := 0xFE } 0x01FF [0x02]) 0x0100 [0x06]) [0x60])).map
      (fun t => (t.pc, t.sp)) = some (0x0603, 0x00) := by decide
theorem test_bcc : (after (withCode { State.reset with p := 0x21 } [0x90, 0x04])).map (·.pc) = some 0x0602 := by decide   -- BR2
theorem test_bcs : (after (withCode { State.reset with p := 0x21, pc := 0x0700 } [0xB0, 0xFE])).map (·.pc)
    = some 0x0700 := by decide   -- BR3
theorem test_bne : (after (withCode { State.reset with pc := 0x0605 } [0xD0, 0xFB])).map (·.pc) = some 0x0602 := by decide   -- BR4
theorem test_bne_wraps : (after (withCode { State.reset with pc := 0x0000 } [0xD0, 0x80])).map (·.pc)
    = some 0xFF82 := by decide   -- AM9
theorem test_beq : (after (withCode { State.reset with p := 0x22, pc := 0xFFFE } [0xF0, 0x10])).map (·.pc)
    = some 0x0010 := by decide   -- AM10
theorem test_bvc : (after (withCode State.reset [0x50, 0x80])).map (·.pc) = some 0x0582 := by decide   -- BR6
theorem test_bvs : (after (withCode State.reset [0x70, 0x10])).map (·.pc) = some 0x0602 := by decide   -- BR7
theorem test_bpl : (after (withCode State.reset [0x10, 0x7F])).map (·.pc) = some 0x0681 := by decide   -- BR8
theorem test_bmi : (after (withCode { State.reset with p := 0xA0, pc := 0x0010 } [0x30, 0x80])).map (·.pc)
    = some 0xFF92 := by decide   -- BR10
theorem test_nop_wraps : (after (withCode { State.reset with pc := 0xFFFF } [0xEA])).map (·.pc) = some 0x0000 := by decide   -- NP2
theorem test_undefined :   -- UD3
    refusal (step (withCode { State.reset with a := 0x01 } [0x69, 0x05])) = some (.undefinedOpcode 0x69 0x0600) := by decide

/-- AM11: operand bytes are fetched across the end of memory. -/
theorem test_fetch_wraps :
    (after (withCode (State.storeBytes { State.reset with pc := 0xFFFE } 0x0300 [0x5A]) [0xAD, 0x00, 0x03])).map
      (fun t => (t.a, t.pc)) = some (0x5A, 0x0001) := by decide
/-- AM4: the Indirect,Y pointer has no wrap in page 0. -/
theorem test_indirectY_pointer_crosses_page_zero :
    resolve Config.default (.indirectY 0xFF) (State.storeBytes (State.storeBytes { State.reset with y := 0x05 } 0x0100 [0x20]) 0x0000 [0x77])
      = .addr 0x2005 := by decide
/-- AM6 and AM7 with the parameters that are not the default. -/
theorem test_parameters_of_the_resolver :
    resolve { Config.default with indxDeref := true } (.indirectX 0xF0)
      (State.storeBytes { State.reset with x := 0x20 } 0x0010 [0x34, 0x12]) = .addr 0x1234 ∧
    resolve { Config.default with jmpIndPageWrap := true } (.indirect 0x12FF)
      (State.storeBytes (State.storeBytes State.reset 0x12FF [0x34, 0x12]) 0x1200 [0x56]) = .addr 0x5634 := by decide

/-! ## The host's commands -/

/-- UD1 and UD2: from construct nothing runs until the host loads a program; the same outcome, the same state. -/
theorem test_step_from_construct :
    perform Config.default .step State.reset = (.stopped (.undefinedOpcode 0x00 0x0600), State.reset) := by decide
/-- HL1 and HL2. -/
theorem test_load_at_the_end :
    perform Config.default (.load 0xFFFE [0x01, 0x02, 0x03]) State.reset = (.loadRefused, State.reset) ∧
    (perform Config.default (.load 0xFFFE [0x01, 0x02]) State.reset).2.mem = [(0xFFFE, 0x01), (0xFFFF, 0x02)] := by decide
/-- The other two policies of LOAD_OVERRUN (D19). -/
theorem test_load_overrun_policies :
    (load .wrap 0xFFFF [0x01, 0x02] State.reset).map (·.mem) = some [(0x0000, 0x02), (0xFFFF, 0x01)] ∧
    (load .truncate 0xFFFF [0x01, 0x02] State.reset).map (·.mem) = some [(0xFFFF, 0x01)] := by decide

/-! ## Witnesses: a state and operands that meet all the hypotheses of each statement that has some -/

/-- A catalog whose byte 0x00 is STA with an Immediate operand: the mismatch of R282. -/
def mismatched : Config := { Config.default with catalog := [⟨0x00, .sta, .immediate, .exact 2⟩] }

theorem witness_StepRunsTheDecodedInstruction :
    let s := withCode { State.reset with pc := 0xFFFE } [0xAD, 0x00, 0x03]
    decode ((List.range 3).map fun k => s.read (s.pc + BitVec.ofNat 16 k)) = .ok (.lda (.absolute 0x0300), []) := by decide

theorem witness_StepIsTheSpecsTransition_undefined :
    lookup Config.default.catalog (State.reset.read State.reset.pc) = none := by decide
theorem witness_StepIsTheSpecsTransition_mismatch :
    lookup mismatched.catalog (State.reset.read State.reset.pc) = some ⟨0x00, .sta, .immediate, .exact 2⟩ ∧
    accepts .sta (resolve mismatched (AddrMode.immediate.form 0x00 0x00) State.reset).kind = false ∧
    faultOf (stepWith mismatched State.reset) = some (.contractViolation 0x00 0x0600) := by decide
theorem witness_StepIsTheSpecsTransition_runs :
    let s := withCode State.reset [0xA2, 0xFF]
    lookup Config.default.catalog (s.read s.pc) = some ⟨0xA2, .ldx, .immediate, .exact 2⟩ ∧
    accepts .ldx (resolve Config.default (AddrMode.immediate.form 0xFF 0x00) s).kind = true := by decide

theorem witness_EveryAcceptedOperandCompletes_accepted :
    accepts .asl (resolve Config.default .accumulator State.reset).kind = true := by decide
theorem witness_EveryAcceptedOperandCompletes_mismatch :
    accepts .sta (resolve Config.default (.immediate 0x00) State.reset).kind = false := by decide
theorem witness_EveryAcceptedOperandCompletes_entry : (⟨0x6C, .jmp, .indirect, .exact 5⟩ : CatalogRow) ∈ defaultCatalog := by decide

theorem witness_UndefinedOpcodeStopsWithNothingChanged : State.reset.read State.reset.pc ∈ undefinedOpcodes := by decide

theorem witness_AStepThatIsNotOkChangesNothing_undefined :
    (perform Config.default .step State.reset).1 ≠ .ok ∧
    stepWith Config.default State.reset = .refused (.undefinedOpcode 0x00 0x0600) := ⟨by decide, rfl⟩
theorem witness_AStepThatIsNotOkChangesNothing_mismatch :
    (perform mismatched .step State.reset).1 ≠ .ok ∧
    stepWith mismatched State.reset = .fault (.contractViolation 0x00 0x0600) := ⟨by decide, rfl⟩

theorem witness_DecodeOfEncode : (Instr.jmp (.indirect 0xFFFF)).WellFormed ∧ (Instr.undefined 0xFF).WellFormed := by decide
theorem witness_EncodeOfDecode : decode [0x6C, 0xFF, 0x12, 0xEA] = .ok (.jmp (.indirect 0x12FF), [0xEA]) := by decide

theorem witness_DecodedLengthIsOnePlusOperandBytes :
    decode [0x8D, 0x34, 0x12] = .ok (.sta (.absolute 0x1234), []) ∧ (Instr.sta (.absolute 0x1234)).operation = some .sta ∧
    decode (0x8D :: [0x34, 0x12]) = .ok (.sta (.absolute 0x1234), []) ∧
    decode (0x8D :: [0xFF, 0xFF, 0x00]) = .ok (.sta (.absolute 0xFFFF), [0x00]) := by decide

theorem witness_OpcodeBytesOfTheRules : (Operation.asl, AddrMode.accumulator, 0x0A) ∈ Sys2Proof.Machine.encodingLines := by decide

/-- The end of the address space, the end of a page under JMP_IND_PAGE_WRAP, and the end of page 0. -/
theorem witness_IndirectModesResolve_indirect :
    (0xFFFF : Addr).toNat = (0xFF : Byte).toNat * 256 + (0xFF : Byte).toNat ∧
    (0x0000 : Addr).toNat = ((0xFF : Byte).toNat * 256 + (0xFF : Byte).toNat + 1) % 65536 ∧
    (0xFF00 : Addr).toNat = (0xFF : Byte).toNat * 256 + ((0xFF : Byte).toNat + 1) % 256 := by decide
theorem witness_IndirectModesResolve_indirectX :
    (0x00FF : Addr).toNat = ((0xFE : Byte).toNat + ({ State.reset with x := 0x01 } : State).x.toNat) % 256 ∧
    (0x0000 : Addr).toNat = ((0xFE : Byte).toNat + ({ State.reset with x := 0x01 } : State).x.toNat + 1) % 256 := by decide
theorem witness_IndirectModesResolve_indirectY :
    (0x00FF : Addr).toNat = (0xFF : Byte).toNat ∧ (0x0100 : Addr).toNat = (0xFF : Byte).toNat + 1 := by decide

theorem witness_MemoryReturnsTheLastWrite :
    ∀ w ∈ ([(0xFFFF, 0x01), (0x0000, 0x02)] : List (Addr × Byte)), w.1 ≠ 0x0001 := by simp

theorem witness_EqualContentsAreEqualMemories :
    Memory.wf [(0x0000, 0x01), (0xFFFF, 0xFF)] ∧
    Memory.setByteAt [(0xFFFF, 0xFF)] 0x0000 0x01 = [(0x0000, 0x01), (0xFFFF, 0xFF)] := by decide

theorem witness_EveryStepKeepsTheInvariant :
    ∃ s t : State, s.Inv ∧ step s = .next t ∧ t.p = 0x20 :=
  ⟨withCode { State.reset with sp := 0xFE } [0x28], _, ⟨by decide, by decide⟩, rfl, by decide⟩

theorem witness_StubBitInReachableStates :
    Config.default.plpStubVerbatim = false ∧
    Reachable Config.default (perform Config.default (.load 0x0600 [0x28]) State.reset).2 :=
  ⟨rfl, .perform _ .construct⟩

/-- STA $FFFF at 0xFFFC stores SEC where the next instruction begins. -/
theorem witness_StoredCodeIsFetched_next :
    let s := withCode { State.reset with pc := 0xFFFC, a := 0x38 } [0x8D, 0xFF, 0xFF]
    (Operation.sta, (0x38 : Byte)) ∈ [(Operation.sta, s.a), (.stx, s.x), (.sty, s.y)] ∧
    decode [s.read s.pc, s.read (s.pc + 1), s.read (s.pc + 2)] = .ok (.sta (.absolute 0xFFFF), []) ∧
    OperandAt (.absolute 0xFFFF) s 0xFFFF ∧ s.pcAfter (.absolute 0xFFFF) = 0xFFFF ∧
    decode [0x38, s.read 0x0000, s.read 0x0001] = .ok (.sec .implied, [0x00, 0x00]) :=
  ⟨by decide, by decide, rfl, by decide, by decide⟩
/-- STX on its own low operand byte, STY on its own high one. -/
theorem witness_StoredCodeIsFetched_own_operand :
    let s := withCode { State.reset with x := 0x77 } [0x8E, 0x01, 0x06]
    let u := withCode { State.reset with y := 0x77 } [0x8C, 0x02, 0x06]
    ((Operation.stx, (0x77 : Byte)) ∈ [(Operation.sta, s.a), (.stx, s.x), (.sty, s.y)] ∧
      decode [s.read s.pc, s.read (s.pc + 1), s.read (s.pc + 2)] = .ok (.stx (.absolute 0x0601), []) ∧
      OperandAt (.absolute 0x0601) s (s.pc + 1)) ∧
    (Operation.sty, (0x77 : Byte)) ∈ [(Operation.sta, u.a), (.stx, u.x), (.sty, u.y)] ∧
      decode [u.read u.pc, u.read (u.pc + 1), u.read (u.pc + 2)] = .ok (.sty (.absolute 0x0602), []) ∧
      OperandAt (.absolute 0x0602) u (u.pc + 2) :=
  ⟨⟨by decide, by decide, rfl⟩, by decide, by decide, rfl⟩

theorem witness_LoadsWriteTheRegisterZeroNegative_constant : OperandIs (.immediate 0x00) State.reset 0x00 := .inl rfl
theorem witness_LoadsWriteTheRegisterZeroNegative_memory :
    OperandIs (.absoluteX 0xFFFF) (State.storeBytes { State.reset with x := 0x01 } 0x0000 [0x80]) 0x80 := .inr ⟨0x0000, rfl, rfl⟩

theorem witness_StoresWriteOneByteAndNoFlag : OperandAt (.zeroPageX 0xFF) { State.reset with x := 0x02 } 0x0001 := rfl

/-- The result 0 at both ends: 0xFF counted up, 0x01 counted down. -/
theorem witness_CountersWrapModulo256_status :
    StatusAfter 0x20 0x22 [(.zero, decide ((0x00 : Byte) = 0)), (.negative, (0x00 : Byte).getLsbD 7)] := by
  intro b; cases b <;> decide
theorem witness_CountersWrapModulo256_up :
    (0x00 : Byte).toNat = (({ State.reset with x := 0xFF } : State).x.toNat + 1) % 256 ∧
    (0x00 : Byte).toNat = (({ State.reset with y := 0xFF } : State).y.toNat + 1) % 256 := by decide
theorem witness_CountersWrapModulo256_down :
    (0x00 : Byte).toNat = (({ State.reset with x := 0x01 } : State).x.toNat + 255) % 256 ∧
    (0x00 : Byte).toNat = (({ State.reset with y := 0x01 } : State).y.toNat + 255) % 256 := by decide
theorem witness_CountersWrapModulo256_memory :
    let up := State.storeBytes State.reset 0x0010 [0xFF]
    let down := State.storeBytes State.reset 0x0010 [0x01]
    OperandAt (.zeroPage 0x10) up 0x0010 ∧ (0x00 : Byte).toNat = ((up.read 0x0010).toNat + 1) % 256 ∧
    OperandAt (.zeroPage 0x10) down 0x0010 ∧ (0x00 : Byte).toNat = ((down.read 0x0010).toNat + 255) % 256 :=
  ⟨rfl, by decide, rfl, by decide⟩

/-- SH1's values: 0x80 doubled is 0x00, with carry and zero. -/
theorem witness_ShiftLeftWritesCarryZeroNegative_accumulator :
    (0x00 : Byte).toNat = (0x80 : Byte).toNat * 2 % 256 ∧
    StatusAfter State.reset.p 0x23 [(.carry, (0x80 : Byte).getLsbD 7), (.zero, decide ((0x00 : Byte) = 0)),
      (.negative, (0x00 : Byte).getLsbD 7)] ∧ 0x80 = ({ State.reset with a := 0x80 } : State).a :=
  ⟨by decide, by intro b; cases b <;> decide, rfl⟩
theorem witness_ShiftLeftWritesCarryZeroNegative_memory :
    let s := State.storeBytes State.reset 0x0010 [0x80]
    (0x00 : Byte).toNat = (0x80 : Byte).toNat * 2 % 256 ∧
    StatusAfter s.p 0x23 [(.carry, (0x80 : Byte).getLsbD 7), (.zero, decide ((0x00 : Byte) = 0)),
      (.negative, (0x00 : Byte).getLsbD 7)] ∧ OperandAt (.zeroPage 0x10) s 0x0010 ∧ 0x80 = s.read 0x0010 :=
  ⟨by decide, by intro b; cases b <;> decide, rfl, by decide⟩

theorem witness_ComparesSetCarryZeroNegativeOnly_constant : OperandIs (.immediate 0xFF) State.reset 0xFF := .inl rfl
theorem witness_ComparesSetCarryZeroNegativeOnly_memory :
    OperandIs (.indirectY 0x10) (State.storeBytes State.reset 0x0010 [0x00, 0x03]) 0x00 := .inr ⟨0x0300, rfl, rfl⟩

/-- PLP of a byte with bit 6 set. -/
theorem witness_FlagInstructionsForceOneFlag :
    ∃ t, exec (.plp .implied) (State.storeBytes State.reset 0x0100 [0x40]) = .next t ∧
      (State.storeBytes State.reset 0x0100 [0x40]).flag .overflow = false ∧ t.flag .overflow = true :=
  ⟨_, rfl, by decide, by decide⟩

theorem witness_PushesStoreTheRegister :
    (0x0100 : Addr).toNat = 256 + ({ State.reset with sp := 0x00 } : State).sp.toNat ∧
    (0xFF : Byte).toNat = (({ State.reset with sp := 0x00 } : State).sp.toNat + 255) % 256 := by decide
theorem witness_PullsReadTheStackByte :
    (0x00 : Byte).toNat = (State.reset.sp.toNat + 1) % 256 ∧ (0x0100 : Addr).toNat = 256 + (0x00 : Byte).toNat := by decide

/-- At PC = 0xFFFE the target of 0x7F wraps. -/
theorem witness_BranchesTakeTheResolvedAddressOrAdvance :
    Operation.bmi ∈ ([.bcc, .bcs, .bne, .beq, .bvc, .bvs, .bpl, .bmi] : List Operation) ∧
    ((0x007F : Addr).toNat : Int) = ((({ State.reset with pc := 0xFFFE } : State).pc.toNat : Int) + 2 + (0x7F : Byte).toInt) % 65536 := by
  decide

theorem witness_BranchFlagsAndPolarities : OperandAt (.relative 0x80) { State.reset with pc := 0x0000 } 0xFF82 := rfl
theorem witness_JumpSetsProgramCounterOnly :
    OperandAt (.absolute 0xFFFF) State.reset 0xFFFF ∧
    OperandAt (.indirect 0xFFFF) (State.storeBytes State.reset 0x0000 [0x07]) 0x0700 := ⟨rfl, rfl⟩

/-- JS2: the two stack bytes on both sides of the wrap. -/
theorem witness_JumpToSubroutinePushesTheLastByteAddress :
    let s : State := { State.reset with sp := 0x00 }
    OperandAt (.absolute 0x1000) s 0x1000 ∧
    (0x0602 : Addr).toNat = (s.pc.toNat + (Form.absolute 0x1000).length - 1) % 65536 ∧
    (0x0100 : Addr).toNat = 256 + s.sp.toNat ∧ (0x01FF : Addr).toNat = 256 + (s.sp.toNat + 255) % 256 ∧
    (0xFE : Byte).toNat = (s.sp.toNat + 254) % 256 := ⟨rfl, by decide⟩

/-- RT3: the pulled 0xFFFF plus 1 wraps to 0x0000. -/
theorem witness_ReturnFromSubroutinePullsAndAddsOne :
    let s := State.storeBytes { State.reset with sp := 0xFD } 0x01FE [0xFF, 0xFF]
    (0x01FE : Addr).toNat = 256 + (s.sp.toNat + 1) % 256 ∧ (0x01FF : Addr).toNat = 256 + (s.sp.toNat + 2) % 256 ∧
    (0xFF : Byte).toNat = (s.sp.toNat + 2) % 256 ∧
    (0x0000 : Addr).toNat = ((s.read 0x01FF).toNat * 256 + (s.read 0x01FE).toNat + 1) % 65536 := by decide

/-- The state after the call is itself one that has its SP and its two stack bytes. -/
theorem witness_CallThenReturnComesBackAfterTheCall :
    ∃ t : State, exec (.jsr (.absolute 0x1000)) { State.reset with sp := 0x00 } = .next t ∧ t.sp = 0xFE ∧
      t.read 0x0100 = 0x06 ∧ t.read 0x01FF = 0x02 := ⟨_, rfl, by decide⟩

theorem witness_NoOperationAdvancesOnly :
    (0x0000 : Addr).toNat = (({ State.reset with pc := 0xFFFF } : State).pc.toNat + 1) % 65536 := by decide

theorem witness_ProgramCounterAdvanceRule_advance :
    (∃ t, exec (.lda (.absolute 0x0300)) { State.reset with pc := 0xFFFE } = .next t ∧ t.pc = 0x0001) ∧
    ¬ OneOf [.jmp, .jsr, .rts, .bcc, .bcs, .bne, .beq, .bvc, .bvs, .bpl, .bmi] (.lda (.absolute 0x0300)) :=
  ⟨⟨_, rfl, rfl⟩, by rintro ⟨o, ho, he⟩; cases he; revert ho; decide⟩
theorem witness_ProgramCounterAdvanceRule_jump :
    (∃ t, exec (.jsr (.absolute 0x1000)) State.reset = .next t) ∧ OneOf [.jmp, .jsr] (.jsr (.absolute 0x1000)) :=
  ⟨⟨_, rfl⟩, .jsr, by decide, rfl⟩
theorem witness_ProgramCounterAdvanceRule_return :
    (∃ t, exec (.rts .implied) State.reset = .next t) ∧ OneOf [.rts] (.rts .implied) := ⟨⟨_, rfl⟩, .rts, by decide, rfl⟩
theorem witness_ProgramCounterAdvanceRule_branch :
    (∃ t, exec (Operation.bcc.instr (.relative 0xFE)) State.reset = .next t) ∧ State.reset.flag .carry = false ∧
    State.reset.flag .carry ≠ true := ⟨⟨_, rfl⟩, by decide, by decide⟩

/-- INX leaves A and takes no part in it; LDA writes A and does not read it. -/
theorem witness_AccumulatorIsUsedByItsListOnly :
    (∃ t, exec (.inx .implied) State.reset = .next t) ∧
    ¬ (OneOf [.lda, .txa, .tya, .pla] (.inx .implied) ∨ Instr.inx .implied = .asl .accumulator) ∧
    ¬ (OneOf [.sta, .tax, .tay, .cmp, .pha] (.inx .implied) ∨ Instr.inx .implied = .asl .accumulator) ∧
    ¬ (OneOf [.sta, .tax, .tay, .cmp, .pha] (.lda (.immediate 0x01)) ∨ Instr.lda (.immediate 0x01) = .asl .accumulator) ∧
    (OneOf [.lda, .txa, .tya, .pla] (.lda (.immediate 0x01)) ∨ Instr.lda (.immediate 0x01) = .asl .accumulator) := by
  refine ⟨⟨_, rfl⟩, ?_, ?_, ?_, .inl ⟨.lda, by decide, rfl⟩⟩ <;>
    (rintro (⟨o, ho, he⟩ | he) <;> cases he; revert ho; decide)

/-- INY leaves X and does not read it; LDX writes X and does not read it. -/
theorem witness_IndexXIsUsedByItsListOnly :
    (∃ t, exec (.iny .implied) State.reset = .next t) ∧
    ¬ OneOf [.ldx, .tax, .tsx, .inx, .dex] (.iny .implied) ∧
    ¬ (OneOf [.stx, .txa, .txs, .cpx, .inx, .dex] (.iny .implied) ∨
      (Instr.iny .implied).form.mode ∈ [AddrMode.zeroPageX, .absoluteX, .indirectX]) ∧
    ¬ (OneOf [.stx, .txa, .txs, .cpx, .inx, .dex] (.ldx (.zeroPageY 0x10)) ∨
      (Instr.ldx (.zeroPageY 0x10)).form.mode ∈ [AddrMode.zeroPageX, .absoluteX, .indirectX]) ∧
    OneOf [.ldx, .tax, .tsx, .inx, .dex] (.ldx (.zeroPageY 0x10)) := by
  refine ⟨⟨_, rfl⟩, ?_, ?_, ?_, ⟨.ldx, by decide, rfl⟩⟩
  · rintro ⟨o, ho, he⟩; cases he; revert ho; decide
  · rintro (⟨o, ho, he⟩ | he)
    · cases he; revert ho; decide
    · revert he; decide
  · rintro (⟨o, ho, he⟩ | he)
    · cases he; revert ho; decide
    · revert he; decide

/-- INX leaves Y and does not read it; LDY writes Y and does not read it. -/
theorem witness_IndexYIsUsedByItsListOnly :
    (∃ t, exec (.inx .implied) State.reset = .next t) ∧
    ¬ OneOf [.ldy, .tay, .iny, .dey] (.inx .implied) ∧
    ¬ (OneOf [.sty, .tya, .cpy, .iny, .dey] (.inx .implied) ∨
      (Instr.inx .implied).form.mode ∈ [AddrMode.zeroPageY, .absoluteY, .indirectY]) ∧
    ¬ (OneOf [.sty, .tya, .cpy, .iny, .dey] (.ldy (.zeroPageX 0x10)) ∨
      (Instr.ldy (.zeroPageX 0x10)).form.mode ∈ [AddrMode.zeroPageY, .absoluteY, .indirectY]) ∧
    OneOf [.ldy, .tay, .iny, .dey] (.ldy (.zeroPageX 0x10)) := by
  refine ⟨⟨_, rfl⟩, ?_, ?_, ?_, ⟨.ldy, by decide, rfl⟩⟩
  · rintro ⟨o, ho, he⟩; cases he; revert ho; decide
  · rintro (⟨o, ho, he⟩ | he)
    · cases he; revert ho; decide
    · revert he; decide
  · rintro (⟨o, ho, he⟩ | he)
    · cases he; revert ho; decide
    · revert he; decide

/-- An operation of the catalog at a mode that reads X, and one at a mode that reads Y. -/
theorem witness_IndexedModesOfOperations :
    AddrMode.indirectX ∈ Operation.modes .cmp ∧ AddrMode.indirectX ∈ [AddrMode.zeroPageX, .absoluteX, .indirectX] ∧
    AddrMode.zeroPageY ∈ Operation.modes .stx ∧ AddrMode.zeroPageY ∈ [AddrMode.zeroPageY, .absoluteY, .indirectY] := by decide

/-- JMP leaves SP and does not read it; TXS writes SP and does not read it. -/
theorem witness_StackPointerIsUsedByItsListOnly :
    (∃ t, exec (.jmp (.absolute 0x1234)) State.reset = .next t) ∧
    ¬ OneOf [.pha, .php, .pla, .plp, .jsr, .rts, .txs] (.jmp (.absolute 0x1234)) ∧
    ¬ OneOf [.pha, .php, .pla, .plp, .jsr, .rts, .tsx] (.jmp (.absolute 0x1234)) ∧
    ¬ OneOf [.pha, .php, .pla, .plp, .jsr, .rts, .tsx] (.txs .implied) ∧
    OneOf [.pha, .php, .pla, .plp, .jsr, .rts, .txs] (.txs .implied) := by
  refine ⟨⟨_, rfl⟩, ?_, ?_, ?_, ⟨.txs, by decide, rfl⟩⟩ <;> (rintro ⟨o, ho, he⟩; cases he; revert ho; decide)

/-- LDA leaves C and does not read it, and writes Z without reading it; PLP answers a next state. -/
theorem witness_FlagsAreUsedByTheirListsOnly :
    (∃ t, exec (.lda (.immediate 0x00)) State.reset = .next t) ∧
    ¬ OneOf (StatusBit.writers .carry) (.lda (.immediate 0x00)) ∧ ¬ OneOf (StatusBit.readers .carry) (.lda (.immediate 0x00)) ∧
    OneOf (StatusBit.writers .zero) (.lda (.immediate 0x00)) ∧ ¬ OneOf (StatusBit.readers .zero) (.lda (.immediate 0x00)) ∧
    (∃ t, exec (.plp .implied) State.reset = .next t) ∧ StatusBit.brk ≠ .stub ∧ Operation.plp ∈ StatusBit.writers .brk ∧
    Operation.php ∈ StatusBit.readers .stub := by
  refine ⟨⟨_, rfl⟩, ?_, ?_, ⟨.lda, by decide, rfl⟩, ?_, ⟨_, rfl⟩, by decide, by decide, by decide⟩ <;> (rintro ⟨o, ho, he⟩; cases he; revert ho; decide)

theorem witness_LoadCopiesTheBytesOrIsRefused_copies :
    (0xFFFE : Addr).toNat + ([0x01, 0x02] : List Byte).length ≤ 65536 := by decide
theorem witness_LoadCopiesTheBytesOrIsRefused_refused :
    65536 < (0xFFFE : Addr).toNat + ([0x01, 0x02, 0x03] : List Byte).length := by decide

end Sys2Proof.Tests
end

