-- ==== Sys2Proof/Proofs/SetZN.lean ====
section
/-! PROOF. SetZN (R10) in the terms of the statements: which bits of P it writes, and with what. -/

namespace Sys2Proof.Machine

/-- SetZN on the state writes P and nothing else. -/
theorem State.setZN_eq (s : State) (v : Byte) : s.setZN v = { s with p := Machine.setZN v s.p } := rfl

/-- The bits of a status byte that SetZN of `v` leaves, listed as R10 lists them. -/
theorem statusAfter_setZN (v p : Byte) :
    StatusAfter p (setZN v p) [(.zero, decide (v = 0)), (.negative, v.getLsbD 7)] := by
  intro b
  have hmsb : v.msb = v.getLsbD 7 := BitVec.msb_eq_getLsbD_last v
  rw [statusBit_setZN, hmsb]
  cases b with
  | zero => exact beq_eq_decide v 0
  | _ => rfl

/-- Settles O25: the new P is SetZN's own status byte, whose bits are known one by one. -/
theorem setZNWritesZeroAndNegativeOnly : Obligations.SetZNWritesZeroAndNegativeOnly := fun s v =>
  ⟨setZN v s.p, s.setZN_eq v, statusAfter_setZN v s.p⟩

end Sys2Proof.Machine
end

/-! PROOF. What `exec` answers, handler by handler: the inversion of `exec`, what each handler outside the shared shapes
answers, and a handler that moves a part of the state no further than the length advance of R28. -/

namespace Sys2Proof.Machine

/-! ## `exec` in terms of its handler -/

@[simp] theorem oneOf_instr {os : List Operation} {o : Operation} {f : Form} : OneOf os (o.instr f) ↔ o ∈ os := by
  simp [OneOf]

theorem exec_instr (o : Operation) (f : Form) (s : State) :
    exec (o.instr f) s = handlerOf Config.default (o.instr f) (resolve Config.default f s) f.length s := by
  rw [exec_eq_execWith, execWith, runForm, form_instr]

theorem eq_instr_or_eq_undefined (i : Instr) : (∃ o f, i = Operation.instr o f) ∨ ∃ op, i = .undefined op := by
  cases h : i.operation with
  | some o => exact .inl ⟨o, i.form, instr_of_operation h⟩
  | none =>
    cases i with
    | undefined op => exact .inr ⟨op, rfl⟩
    | _ => simp [Instr.operation] at h

/-- If an instruction answers a next state, it is an operation at a form, and its handler answers that state. -/
theorem exec_next {i : Instr} {s t : State} (h : exec i s = .next t) :
    ∃ o f, i = Operation.instr o f ∧
      handlerOf Config.default (o.instr f) (resolve Config.default f s) f.length s = .next t := by
  rcases eq_instr_or_eq_undefined i with ⟨o, f, rfl⟩ | ⟨op, rfl⟩
  · exact ⟨o, f, rfl, exec_instr o f s ▸ h⟩
  · cases h

theorem resolve_eq_acc_iff {cfg : Config} {f : Form} {s : State} : resolve cfg f s = .acc ↔ f = .accumulator := by
  cases f <;> simp [resolve]

/-- Only ASL at Accumulator has the accumulator for its operand and shifts it. -/
theorem resolve_ne_acc {o : Operation} {f : Form} (s : State) (h : o.instr f ≠ .asl .accumulator) (ho : o = .asl) :
    resolve Config.default f s ≠ .acc := by
  intro hf
  rw [ho, resolve_eq_acc_iff.mp hf] at h
  exact h rfl

/-! ## The handlers outside the shared shapes -/

theorem handleAsl_next {o : Operand} {len : Nat} {s t : State} (h : handleAsl o len s = .next t) :
    (o = .acc ∧ t = ((s.setA (s.a <<< 1)).setP (shiftLeftFlags s.a s.p)).advance len) ∨
    ∃ k, o = .addr k ∧ t = ((s.write k (s.read k <<< 1)).setP (shiftLeftFlags (s.read k) s.p)).advance len := by
  cases o <;> simp_all [handleAsl, reportContractViolation]

theorem handleJmp_next {o : Operand} {len : Nat} {s t : State} (h : handleJmp o len s = .next t) :
    ∃ k, o = .addr k ∧ t = s.setPC k := by
  cases o <;> simp_all [handleJmp, reportContractViolation]

theorem handleJsr_next {o : Operand} {len : Nat} {s t : State} (h : handleJsr o len s = .next t) :
    ∃ k, o = .addr k ∧ t = (s.push16 (s.pc + BitVec.ofNat 16 len - 1)).setPC k := by
  cases o <;> simp_all [handleJsr, reportContractViolation]

theorem handleRts_next {o : Operand} {len : Nat} {s t : State} (h : handleRts o len s = .next t) :
    o = .none ∧ t = s.pull16.2.setPC (s.pull16.1 + 1) := by
  cases o <;> simp_all [handleRts, reportContractViolation]

/-! ## Parts that move with the length advance alone -/

/-- On this operand the handler moves `part` no further than the length advance does: PC by the length, and any other
part not at all. -/
def Handler.OnlyAdvances {α : Type} (part : State → α) (h : Handler) (o : Operand) : Prop :=
  ∀ len s t, h o len s = .next t → part t = part (s.advance len)

section
variable {α : Type} {part : State → α} {o : Operand}

theorem impliedHandler_onlyAdvances {e : State → State}
    (he : ∀ s n, part ((e s).advance n) = part (s.advance n)) : Handler.OnlyAdvances part (impliedHandler e) o := by
  intro len s t h
  obtain ⟨-, rfl⟩ := impliedHandler_next h
  exact he s len

theorem valueHandler_onlyAdvances {e : Byte → State → State}
    (he : ∀ v s n, part ((e v s).advance n) = part (s.advance n)) : Handler.OnlyAdvances part (valueHandler e) o := by
  intro len s t h
  obtain ⟨v, -, rfl⟩ := valueHandler_next h
  exact he v s len

theorem storeHandler_onlyAdvances {value : State → Byte}
    (he : ∀ k v s n, part ((State.write s k v).advance n) = part (s.advance n)) :
    Handler.OnlyAdvances part (storeHandler value) o := by
  intro len s t h
  obtain ⟨k, -, rfl⟩ := storeHandler_next h
  exact he k _ s len

theorem memoryCounterHandler_onlyAdvances {compute : Byte → Byte}
    (he : ∀ k v s n, part (((State.write s k v).setZN v).advance n) = part (s.advance n)) :
    Handler.OnlyAdvances part (memoryCounterHandler compute) o := by
  intro len s t h
  obtain ⟨k, -, rfl⟩ := memoryCounterHandler_next h
  exact he k _ s len

theorem branchHandler_onlyAdvances {b : StatusBit} {v : Bool}
    (he : ∀ s k n, part (State.setPC s k) = part (s.advance n)) : Handler.OnlyAdvances part (branchHandler b v) o := by
  intro len s t h
  obtain ⟨k, -, rfl⟩ := branchHandler_next h
  split
  · exact he s k len
  · rfl

theorem handleAsl_onlyAdvances
    (hacc : o = .acc → ∀ v p s n, part (((State.setA s v).setP p).advance n) = part (s.advance n))
    (haddr : ∀ k v p s n, part (((State.write s k v).setP p).advance n) = part (s.advance n)) :
    Handler.OnlyAdvances part handleAsl o := by
  intro len s t h
  rcases handleAsl_next h with ⟨ho, rfl⟩ | ⟨k, -, rfl⟩
  · exact hacc ho _ _ s len
  · exact haddr k _ _ s len

theorem handleJmp_onlyAdvances (he : ∀ s k n, part (State.setPC s k) = part (s.advance n)) :
    Handler.OnlyAdvances part handleJmp o := by
  intro len s t h
  obtain ⟨k, -, rfl⟩ := handleJmp_next h
  exact he s k len

theorem handleJsr_onlyAdvances (he : ∀ s w k n, part ((State.push16 s w).setPC k) = part (s.advance n)) :
    Handler.OnlyAdvances part handleJsr o := by
  intro len s t h
  obtain ⟨k, -, rfl⟩ := handleJsr_next h
  exact he s _ k len

theorem handleRts_onlyAdvances (he : ∀ s k n, part ((State.pull16 s).2.setPC k) = part (s.advance n)) :
    Handler.OnlyAdvances part handleRts o := by
  intro len s t h
  obtain ⟨-, rfl⟩ := handleRts_next h
  exact he s _ len

end

/-! ## R28: PC advances by the length, or is assigned -/

theorem State.advance_pc_toNat (s : State) (n : Nat) : (s.advance n).pc.toNat = (s.pc.toNat + n) % 65536 := by
  simp

/-- Every operation but a jump, a return and a branch moves PC by the length. -/
theorem handlerOf_onlyAdvances_pc {o : Operation} (f : Form) (opnd : Operand)
    (ho : o ∉ [.jmp, .jsr, .rts, .bcc, .bcs, .bne, .beq, .bvc, .bvs, .bpl, .bmi]) :
    Handler.OnlyAdvances State.pc (handlerOf Config.default (o.instr f)) opnd := by
  cases o with
  | lda | ldx | ldy | cmp | cpx | cpy => exact valueHandler_onlyAdvances fun _ _ _ => rfl
  | sta | stx | sty => exact storeHandler_onlyAdvances fun _ _ _ _ => rfl
  | inc | dec =>
    -- The dispatch is unfolded first: unification would run the counter's arithmetic instead.
    dsimp only [Operation.instr, handlerOf]
    exact memoryCounterHandler_onlyAdvances fun _ _ _ _ => rfl
  | asl => exact handleAsl_onlyAdvances (fun _ _ _ _ _ => rfl) fun _ _ _ _ _ => rfl
  | jmp | jsr | rts | bcc | bcs | bne | beq | bvc | bvs | bpl | bmi => simp at ho
  | _ => exact impliedHandler_onlyAdvances fun _ _ => rfl

/-- A taken branch puts PC at the resolved address, another advances it by the length (R240). -/
theorem branchHandler_pc {b : StatusBit} {v : Bool} {f : Form} {s t : State}
    (h : runForm Config.default (branchHandler b v) f s = .next t) :
    (s.flag b = v → OperandAt f s t.pc) ∧ (s.flag b ≠ v → t.pc.toNat = (s.pc.toNat + f.length) % 65536) := by
  obtain ⟨k, hk, rfl⟩ := branchHandler_next h
  constructor
  · intro hb
    rw [if_pos hb]
    exact hk
  · intro hb
    rw [if_neg hb]
    exact s.advance_pc_toNat f.length

/-- Settles O44: each operation by the shape of its handler. -/
theorem programCounterAdvanceRule : Obligations.ProgramCounterAdvanceRule := by
  refine ⟨fun i s t hexec => ?_, ?_⟩
  · obtain ⟨o, f, rfl, h⟩ := exec_next hexec
    simp only [oneOf_instr, form_instr, Instr.length]
    refine ⟨fun ho => ?_, fun ho => ?_, fun ho => ?_⟩
    · rw [handlerOf_onlyAdvances_pc f _ ho _ s t h, State.advance_pc_toNat]
    · rcases List.mem_pair.mp ho with rfl | rfl
      · obtain ⟨k, hk, rfl⟩ := handleJmp_next (len := f.length) h
        exact hk
      · obtain ⟨k, hk, rfl⟩ := handleJsr_next h
        exact hk
    · obtain rfl := List.mem_singleton.mp ho
      obtain ⟨-, rfl⟩ := handleRts_next (len := f.length) h
      rfl
  · simp only [List.forall_mem_cons]
    exact ⟨⟨.carry, false, fun _ _ _ => branchHandler_pc⟩, ⟨.carry, true, fun _ _ _ => branchHandler_pc⟩,
      ⟨.zero, false, fun _ _ _ => branchHandler_pc⟩, ⟨.zero, true, fun _ _ _ => branchHandler_pc⟩,
      ⟨.overflow, false, fun _ _ _ => branchHandler_pc⟩, ⟨.overflow, true, fun _ _ _ => branchHandler_pc⟩,
      ⟨.negative, false, fun _ _ _ => branchHandler_pc⟩, ⟨.negative, true, fun _ _ _ => branchHandler_pc⟩,
      List.forall_mem_nil _⟩

end Sys2Proof.Machine

/-! PROOF. A change of registers made before a handler, carried to its next state: how a register that an instruction does
not read has no say in its outcome. -/

namespace Sys2Proof.Machine

/-- A change of the state that leaves PC and memory, and does not look at PC. -/
structure RegisterChange (c : State → State) : Prop where
  pc : ∀ s, (c s).pc = s.pc
  mem : ∀ s, (c s).mem = s.mem
  setPC : ∀ s w, (c s).setPC w = c (s.setPC w)

namespace RegisterChange
variable {c g : State → State}

theorem of_id : RegisterChange id := ⟨fun _ => rfl, fun _ => rfl, fun _ _ => rfl⟩

theorem read_eq (hc : RegisterChange c) (s : State) (k : Addr) : (c s).read k = s.read k :=
  congrArg (Memory.byteAt · k.toNat) (hc.mem s)

theorem advance_eq (hc : RegisterChange c) (s : State) (n : Nat) : (c s).advance n = c (s.advance n) := by
  rw [State.advance, hc.pc, hc.setPC, State.advance]

/-- The report of a contract violation speaks of memory and PC alone. -/
theorem report_eq (hc : RegisterChange c) (s : State) :
    reportContractViolation (c s) = Result.mapNext g (reportContractViolation s) := by
  simp [reportContractViolation, Result.mapNext, hc.read_eq, hc.pc]

theorem operandValue_eq (hc : RegisterChange c) (o : Operand) (s : State) : operandValue o (c s) = operandValue o s := by
  cases o <;> simp [operandValue, hc.read_eq]

end RegisterChange

@[simp] theorem Result.mapNext_id (r : Result) : r.mapNext id = r := by
  cases r <;> rfl

/-- On this operand, `c` before the handler is `g` after it. -/
def Handler.Carries (c g : State → State) (h : Handler) (o : Operand) : Prop :=
  ∀ len s, h o len (c s) = Result.mapNext g (h o len s)

section
variable {c g : State → State} {o : Operand}

theorem impliedHandler_carries (hc : RegisterChange c) (hg : RegisterChange g) {e : State → State}
    (he : ∀ s, e (c s) = g (e s)) : Handler.Carries c g (impliedHandler e) o := by
  intro len s
  cases o with
  | none => simp [impliedHandler, Result.mapNext, he, hg.advance_eq]
  | _ => exact hc.report_eq s

theorem valueHandler_carries (hc : RegisterChange c) (hg : RegisterChange g) {e : Byte → State → State}
    (he : ∀ v s, e v (c s) = g (e v s)) : Handler.Carries c g (valueHandler e) o := by
  intro len s
  simp only [valueHandler, hc.operandValue_eq]
  cases operandValue o s with
  | none => exact hc.report_eq s
  | some v => simp [Result.mapNext, he, hg.advance_eq]

theorem storeHandler_carries (hc : RegisterChange c) (hg : RegisterChange g) {value : State → Byte}
    (he : ∀ k s, (c s).write k (value (c s)) = g (s.write k (value s))) :
    Handler.Carries c g (storeHandler value) o := by
  intro len s
  cases o with
  | addr k => simp [storeHandler, Result.mapNext, he, hg.advance_eq]
  | _ => exact hc.report_eq s

theorem memoryCounterHandler_carries (hc : RegisterChange c) (hg : RegisterChange g) {compute : Byte → Byte}
    (he : ∀ k v s, ((c s).write k v).setZN v = g ((s.write k v).setZN v)) :
    Handler.Carries c g (memoryCounterHandler compute) o := by
  intro len s
  cases o with
  | addr k => simp [memoryCounterHandler, Result.mapNext, hc.read_eq, he, hg.advance_eq]
  | _ => exact hc.report_eq s

theorem branchHandler_carries (hc : RegisterChange c) {b : StatusBit} {v : Bool} (hb : ∀ s, (c s).flag b = s.flag b)
    (he : ∀ s k, (c s).setPC k = g (s.setPC k)) : Handler.Carries c g (branchHandler b v) o := by
  intro len s
  cases o with
  | addr k => simp only [branchHandler, Result.mapNext, State.advance, hb, hc.pc, he, apply_ite g]
  | _ => exact hc.report_eq s

theorem handleAsl_carries (hc : RegisterChange c) (hg : RegisterChange g)
    (hacc : o = .acc → ∀ s, ((c s).setA ((c s).a <<< 1)).setP (shiftLeftFlags (c s).a (c s).p) =
      g ((s.setA (s.a <<< 1)).setP (shiftLeftFlags s.a s.p)))
    (haddr : ∀ k (v : Byte) s, ((c s).write k (v <<< 1)).setP (shiftLeftFlags v (c s).p) =
      g ((s.write k (v <<< 1)).setP (shiftLeftFlags v s.p))) : Handler.Carries c g handleAsl o := by
  intro len s
  cases o with
  | acc => simp [handleAsl, Result.mapNext, hacc, hg.advance_eq]
  | addr k => simp [handleAsl, Result.mapNext, hc.read_eq, haddr, hg.advance_eq]
  | _ => exact hc.report_eq s

theorem handleJmp_carries (hc : RegisterChange c) (he : ∀ s k, (c s).setPC k = g (s.setPC k)) :
    Handler.Carries c g handleJmp o := by
  intro len s
  cases o with
  | addr k => simp [handleJmp, Result.mapNext, he]
  | _ => exact hc.report_eq s

theorem handleJsr_carries (hc : RegisterChange c) (hg : RegisterChange g)
    (hpush : ∀ s w, (c s).push16 w = g (s.push16 w)) : Handler.Carries c g handleJsr o := by
  intro len s
  cases o with
  | addr k => simp [handleJsr, Result.mapNext, hc.pc, hpush, hg.setPC]
  | _ => exact hc.report_eq s

theorem handleRts_carries (hc : RegisterChange c) (hg : RegisterChange g)
    (hvalue : ∀ s, (c s).pull16.1 = s.pull16.1) (hpull : ∀ s, (c s).pull16.2 = g s.pull16.2) :
    Handler.Carries c g handleRts o := by
  intro len s
  cases o with
  | none => simp [handleRts, Result.mapNext, hvalue, hpull, hg.setPC]
  | _ => exact hc.report_eq s

end

/-- If an operand resolves without a part and the handler carries a change of it, to nothing where the instruction writes
the part and to the same change where it does not, the instruction ignores the part. -/
theorem ignores_of_carries {o : Operation} {f : Form} {s : State} {writes : Prop} {c g : State → State}
    (hr : resolve Config.default f (c s) = resolve Config.default f s)
    (hh : Handler.Carries c g (handlerOf Config.default (o.instr f)) (resolve Config.default f s))
    (hw : writes → g = id) (hn : ¬ writes → g = c) : Ignores (o.instr f) s writes c := by
  have hexec : exec (o.instr f) (c s) = Result.mapNext g (exec (o.instr f) s) := by
    rw [exec_instr, exec_instr, hr, hh]
  refine ⟨fun w => ?_, fun n => ?_⟩
  · rw [hexec, hw w, Result.mapNext_id]
  · rw [hexec, hn n]

end Sys2Proof.Machine

/-! PROOF. The registers A, X and Y (R23, R24, R25) as one family: which instructions leave one and which take no part in
one, for all three at once. -/

namespace Sys2Proof.Machine

/-- The accumulator and the two index registers. -/
inductive DataRegister where
  | a | x | y

namespace DataRegister

/-- The byte in the register. -/
def get : DataRegister → State → Byte
  | .a => State.a
  | .x => State.x
  | .y => State.y

/-- The state with another byte in the register. -/
def put : DataRegister → Byte → State → State
  | .a => fun v s => { s with a := v }
  | .x => fun v s => { s with x := v }
  | .y => fun v s => { s with y := v }

/-- The operations that write the register at every form they have; ASL writes A too, at Accumulator. -/
def writers : DataRegister → List Operation
  | .a => [.lda, .txa, .tya, .pla]
  | .x => [.ldx, .tax, .tsx, .inx, .dex]
  | .y => [.ldy, .tay, .iny, .dey]

/-- The operations that read the register at every form they have; ASL reads A too, at Accumulator. -/
def readers : DataRegister → List Operation
  | .a => [.sta, .tax, .tay, .cmp, .pha]
  | .x => [.stx, .txa, .txs, .cpx, .inx, .dex]
  | .y => [.sty, .tya, .cpy, .iny, .dey]

/-- The modes whose operand is at an address that the register is part of (R90, R91, R94, R95, R97, R98). -/
def indexModes : DataRegister → List AddrMode
  | .a => []
  | .x => [.zeroPageX, .absoluteX, .indirectX]
  | .y => [.zeroPageY, .absoluteY, .indirectY]

/-- What a value put into the register before an operation is to its next state: nothing where the operation writes the
register, else the same value there. -/
def carry (r : DataRegister) (o : Operation) (v : Byte) : State → State := if o ∈ r.writers then id else r.put v

/-! ## What a put leaves, and what it does to the operations after it -/

section
variable (r : DataRegister) (v w : Byte) (s : State)

@[simp] theorem put_a (h : r ≠ .a) : (r.put v s).a = s.a := by cases r <;> trivial
@[simp] theorem put_x (h : r ≠ .x) : (r.put v s).x = s.x := by cases r <;> trivial
@[simp] theorem put_y (h : r ≠ .y) : (r.put v s).y = s.y := by cases r <;> trivial
@[simp] theorem put_sp : (r.put v s).sp = s.sp := by cases r <;> rfl
@[simp] theorem put_p : (r.put v s).p = s.p := by cases r <;> rfl
@[simp] theorem put_read (k : Addr) : (r.put v s).read k = s.read k := by cases r <;> rfl
@[simp] theorem put_read16 (k : Addr) : (r.put v s).read16 k = s.read16 k := by cases r <;> rfl
@[simp] theorem put_flag (b : StatusBit) : (r.put v s).flag b = s.flag b := by cases r <;> rfl

@[simp] theorem put_setA (h : r ≠ .a) : (r.put v s).setA w = r.put v (s.setA w) := by cases r <;> trivial
@[simp] theorem put_setX (h : r ≠ .x) : (r.put v s).setX w = r.put v (s.setX w) := by cases r <;> trivial
@[simp] theorem put_setY (h : r ≠ .y) : (r.put v s).setY w = r.put v (s.setY w) := by cases r <;> trivial
@[simp] theorem put_a_setA : (a.put v s).setA w = s.setA w := rfl
@[simp] theorem put_x_setX : (x.put v s).setX w = s.setX w := rfl
@[simp] theorem put_y_setY : (y.put v s).setY w = s.setY w := rfl
@[simp] theorem put_setSP : (r.put v s).setSP w = r.put v (s.setSP w) := by cases r <;> rfl
@[simp] theorem put_setPC (k : Addr) : (r.put v s).setPC k = r.put v (s.setPC k) := by cases r <;> rfl
@[simp] theorem put_setP : (r.put v s).setP w = r.put v (s.setP w) := by cases r <;> rfl
@[simp] theorem put_setZN : (r.put v s).setZN w = r.put v (s.setZN w) := by cases r <;> rfl
@[simp] theorem put_setFlag (b : StatusBit) (z : Bool) : (r.put v s).setFlag b z = r.put v (s.setFlag b z) := by
  cases r <;> rfl
@[simp] theorem put_write (k : Addr) : (r.put v s).write k w = r.put v (s.write k w) := by cases r <;> rfl
@[simp] theorem put_push8 : (r.put v s).push8 w = r.put v (s.push8 w) := by cases r <;> rfl
@[simp] theorem put_push16 (k : Addr) : (r.put v s).push16 k = r.put v (s.push16 k) := by cases r <;> rfl
@[simp] theorem put_pull8 : (r.put v s).pull8 = (s.pull8.1, r.put v s.pull8.2) := by cases r <;> rfl
@[simp] theorem put_pull16 : (r.put v s).pull16 = (s.pull16.1, r.put v s.pull16.2) := by cases r <;> rfl

end

theorem carry_of_mem {r : DataRegister} {o : Operation} (v : Byte) (h : o ∈ r.writers) : r.carry o v = id := if_pos h

theorem carry_of_not_mem {r : DataRegister} {o : Operation} (v : Byte) (h : o ∉ r.writers) : r.carry o v = r.put v :=
  if_neg h

theorem registerChange_put (r : DataRegister) (v : Byte) : RegisterChange (r.put v) := by
  cases r <;> exact ⟨fun _ => rfl, fun _ => rfl, fun _ _ => rfl⟩

theorem registerChange_carry (r : DataRegister) (o : Operation) (v : Byte) : RegisterChange (r.carry o v) := by
  rw [carry]
  split
  · exact .of_id
  · exact r.registerChange_put v

/-- Only an indexed mode's operand depends on a register. -/
theorem resolve_put {r : DataRegister} {f : Form} (cfg : Config) (v : Byte) (s : State) (h : f.mode ∉ r.indexModes) :
    resolve cfg f (r.put v s) = resolve cfg f s := by
  cases f with
  | zeroPageX _ | absoluteX _ | indirectX _ =>
    have hx : r ≠ .x := by rintro rfl; simp [indexModes, Form.mode] at h
    simp [resolve, indirectXAddr, put_x r v s hx]
  | zeroPageY _ | absoluteY _ | indirectY _ =>
    have hy : r ≠ .y := by rintro rfl; simp [indexModes, Form.mode] at h
    simp [resolve, indirectYAddr, put_y r v s hy]
  | _ => cases r <;> rfl

/-- An operation that is no writer leaves the register. -/
theorem handlerOf_onlyAdvances (r : DataRegister) {o : Operation} {opnd : Operand} (f : Form) (hw : o ∉ r.writers)
    (hacc : r = .a → o = .asl → opnd ≠ .acc) :
    Handler.OnlyAdvances r.get (handlerOf Config.default (o.instr f)) opnd := by
  cases o with
  | lda | ldx | ldy | cmp | cpx | cpy =>
    exact valueHandler_onlyAdvances fun _ _ _ => by cases r <;> simp_all [get, writers]
  | sta | stx | sty => exact storeHandler_onlyAdvances fun _ _ _ _ => by cases r <;> rfl
  | inc | dec =>
    dsimp only [Operation.instr, handlerOf]
    exact memoryCounterHandler_onlyAdvances fun _ _ _ _ => by cases r <;> rfl
  | bcc | bcs | bne | beq | bvc | bvs | bpl | bmi =>
    exact branchHandler_onlyAdvances fun _ _ _ => by cases r <;> rfl
  | asl =>
    exact handleAsl_onlyAdvances (fun _ _ _ _ _ => by cases r <;> simp_all [get]) fun _ _ _ _ _ => by cases r <;> rfl
  | jmp => exact handleJmp_onlyAdvances fun _ _ _ => by cases r <;> rfl
  | jsr => exact handleJsr_onlyAdvances fun _ _ _ _ => by cases r <;> rfl
  | rts => exact handleRts_onlyAdvances fun _ _ _ => by cases r <;> rfl
  | _ =>
    exact impliedHandler_onlyAdvances fun _ _ => by
      cases r <;> simp_all [get, writers, State.push8_eq, State.pull8_eq]

/-- An operation that is no reader takes a value put into the register on to its next state, or has lost it there. -/
theorem handlerOf_carries (r : DataRegister) {o : Operation} {opnd : Operand} (f : Form) (v : Byte)
    (hr : o ∉ r.readers) (hacc : r = .a → o = .asl → opnd ≠ .acc) :
    Handler.Carries (r.put v) (r.carry o v) (handlerOf Config.default (o.instr f)) opnd := by
  have hc := r.registerChange_put v
  have hg := r.registerChange_carry o v
  cases o with
  | lda | ldx | ldy | cmp | cpx | cpy =>
    exact valueHandler_carries hc hg fun _ _ => by cases r <;> simp_all [readers, writers, carry]
  | sta | stx | sty => exact storeHandler_carries hc hg fun _ _ => by cases r <;> simp_all [readers, writers, carry]
  | inc | dec =>
    dsimp only [Operation.instr, handlerOf]
    exact memoryCounterHandler_carries hc hg fun _ _ _ => by cases r <;> simp [writers, carry]
  | bcc | bcs | bne | beq | bvc | bvs | bpl | bmi =>
    exact branchHandler_carries hc (r.put_flag v · _) fun _ _ => by cases r <;> simp [writers, carry]
  | asl =>
    exact handleAsl_carries hc hg (fun _ _ => by cases r <;> simp_all [writers, carry]) fun _ _ _ => by
      cases r <;> simp [writers, carry]
  | jmp => exact handleJmp_carries hc fun _ _ => by cases r <;> simp [writers, carry]
  | jsr => exact handleJsr_carries hc hg fun _ _ => by cases r <;> simp [writers, carry]
  | rts => exact handleRts_carries hc hg (fun _ => by simp) fun _ => by cases r <;> simp [writers, carry]
  | _ => exact impliedHandler_carries hc hg fun _ => by cases r <;> simp_all [readers, writers, carry]

/-- An instruction that is no writer of the register leaves it. -/
theorem get_of_exec (r : DataRegister) {i : Instr} {s t : State} (hexec : exec i s = .next t)
    (hw : ¬ OneOf r.writers i) (hacc : r = .a → i ≠ .asl .accumulator) : r.get t = r.get s := by
  obtain ⟨o, f, rfl, h⟩ := exec_next hexec
  rw [oneOf_instr] at hw
  rw [r.handlerOf_onlyAdvances f hw (fun ha => resolve_ne_acc s (hacc ha)) _ s t h]
  cases r <;> rfl

/-- An instruction that is no reader of the register, at a mode that does not index by it, ignores it. -/
theorem ignores_put (r : DataRegister) (i : Instr) (s : State) (v : Byte) (hr : ¬ OneOf r.readers i)
    (hmode : i.form.mode ∉ r.indexModes) (hacc : r = .a → i ≠ .asl .accumulator) :
    Ignores i s (OneOf r.writers i) (r.put v) := by
  rcases eq_instr_or_eq_undefined i with ⟨o, f, rfl⟩ | ⟨op, rfl⟩
  · rw [oneOf_instr] at hr ⊢
    rw [form_instr] at hmode
    exact ignores_of_carries (resolve_put _ v s hmode) (r.handlerOf_carries f v hr fun ha => resolve_ne_acc s (hacc ha))
      (if_pos ·) (if_neg ·)
  · cases r <;> exact ⟨fun _ => rfl, fun _ => rfl⟩

end DataRegister

end Sys2Proof.Machine

/-! PROOF. One good state that shows every access of A, X and Y (R23, R24, R25), and the three statements. -/

namespace Sys2Proof.Machine

theorem Memory.byteAt_setByteAt_same (m : Memory) (k : Nat) (v : Byte) : (m.setByteAt k v).byteAt k = v := by
  rw [Memory.byteAt_setByteAt, if_pos rfl]

/-- The next state that an instruction answers, if it answers one. -/
def answer (i : Instr) (s : State) : Option State :=
  match exec i s with
  | .next t => some t
  | .fault _ => none
  | .refused _ => none

theorem exec_of_answer {i : Instr} {s t : State} (h : answer i s = some t) : exec i s = .next t := by
  unfold answer at h
  split at h <;> simp_all

/-- An outcome that is another one with its next state changed answers that state changed. -/
theorem answer_of_exec_eq {i : Instr} {s u : State} {g : State → State}
    (h : exec i u = Result.mapNext g (exec i s)) : answer i u = (answer i s).map g := by
  rw [answer, answer, h]
  cases exec i s <;> rfl

/-- An instruction that answers a good state with another part writes that part. -/
theorem writes_of_answer {α : Type} [DecidableEq α] {part : State → α} {i : Instr} {s : State} (hs : s.Inv)
    (h : (answer i s).any (fun t => part t != part s) = true) : Writes i part := by
  cases ht : answer i s with
  | none => simp [ht] at h
  | some t => exact ⟨s, t, hs, exec_of_answer ht, by simpa [ht] using h⟩

/-- An instruction whose answer at a good state a change of a part changes, by more than the change itself where it does
not write the part, reads that part. -/
theorem reads_of_answer {α : Type} {i : Instr} {s : State} {writes : Prop} {change : α → State → State} {v : α}
    {g : State → State} (hs : s.Inv) (hw : writes → g = id) (hn : ¬ writes → g = change v)
    (h : answer i (change v s) ≠ (answer i s).map g) : Reads i writes change := by
  refine ⟨s, v, hs, fun ⟨hwrites, hkeeps⟩ => h (answer_of_exec_eq ?_)⟩
  by_cases w : writes
  · rw [hw w, Result.mapNext_id, hwrites w]
  · rw [hn w, hkeeps w]

/-- The form an operation has at the first mode of its rule, with operand bytes 0. -/
def firstForm (o : Operation) : Form := (o.modes.headD .implied).form 0 0

theorem wellFormed_firstForm (o : Operation) : (o.instr (firstForm o)).WellFormed := by
  cases o <;> rfl

namespace DataRegister

/-- A good state in which the three registers differ from each other and from the bytes their values lead to: the byte at
0x0000 is not those at 0x0002 and 0x0003, and the one at 0x0001 is not the one at 0x0004. -/
def probe : State := { State.reset with a := 1, x := 2, y := 3, mem := [(0, 1), (4, 1)] }

theorem probe_inv : probe.Inv := ⟨by decide, by decide⟩

/-- An operation whose answer at the probe a 0 in the register changes reads it. -/
theorem reads_of_probe {r : DataRegister} {o : Operation} {f : Form}
    (h : answer (o.instr f) (r.put 0 probe) ≠ (answer (o.instr f) probe).map (r.carry o 0)) :
    Reads (o.instr f) (OneOf r.writers (o.instr f)) r.put := by
  refine reads_of_answer probe_inv (fun ho => ?_) (fun ho => ?_) h
  · exact carry_of_mem 0 (oneOf_instr.mp ho)
  · exact carry_of_not_mem 0 (mt oneOf_instr.mpr ho)

theorem writers_write (r : DataRegister) : ∀ o ∈ r.writers, ∃ f, (o.instr f).WellFormed ∧ Writes (o.instr f) r.get := by
  have h : ∀ o ∈ r.writers,
      (answer (o.instr (firstForm o)) probe).any (fun t => r.get t != r.get probe) = true := by cases r <;> decide
  exact fun o ho => ⟨firstForm o, wellFormed_firstForm o, writes_of_answer probe_inv (h o ho)⟩

theorem readers_read (r : DataRegister) : ∀ o ∈ r.readers, ∃ f, (o.instr f).WellFormed ∧
    Reads (o.instr f) (OneOf r.writers (o.instr f)) r.put := by
  have h : ∀ o ∈ r.readers, answer (o.instr (firstForm o)) (r.put 0 probe) ≠
      (answer (o.instr (firstForm o)) probe).map (r.carry o 0) := by cases r <;> decide
  exact fun o ho => ⟨firstForm o, wellFormed_firstForm o, reads_of_probe (h o ho)⟩

theorem indexModes_read (r : DataRegister) (o : Operation) (m : AddrMode) (hm : m ∈ o.modes) (hr : m ∈ r.indexModes) :
    ∃ f, f.mode = m ∧ Reads (o.instr f) (OneOf r.writers (o.instr f)) r.put := by
  have h : ∀ o ∈ Operation.all, ∀ m ∈ r.indexModes, m ∈ o.modes → answer (o.instr (m.form 0 0)) (r.put 0 probe) ≠
      (answer (o.instr (m.form 0 0)) probe).map (r.carry o 0) := by cases r <;> decide
  exact ⟨m.form 0 0, mode_form m 0 0, reads_of_probe (h o o.mem_all m hr hm)⟩

end DataRegister

/-- Settles O45: A as one of the three data registers, and ASL on the accumulator apart. -/
theorem accumulatorIsUsedByItsListOnly : Obligations.AccumulatorIsUsedByItsListOnly := by
  refine ⟨fun i s t hexec h => ?_, fun i s v h => ?_, DataRegister.a.writers_write, DataRegister.a.readers_read,
    writes_of_answer DataRegister.probe_inv (by decide),
    reads_of_answer (v := 0) DataRegister.probe_inv (fun _ => rfl) (absurd trivial) (by decide), fun s v k => ?_⟩
  · obtain ⟨hw, hasl⟩ := not_or.mp h
    exact DataRegister.a.get_of_exec hexec hw fun _ => hasl
  · obtain ⟨hr, hasl⟩ := not_or.mp h
    rw [or_iff_left hasl]
    exact DataRegister.a.ignores_put i s v hr List.not_mem_nil fun _ => hasl
  · exact ⟨setZN v s.p, s.mem.setByteAt k.toNat v, rfl, rfl, Memory.byteAt_setByteAt_same ..⟩

/-- Settles O46: X as one of the three data registers. -/
theorem indexXIsUsedByItsListOnly : Obligations.IndexXIsUsedByItsListOnly := by
  refine ⟨fun i s t hexec hw => DataRegister.x.get_of_exec hexec hw nofun, fun i s v h => ?_,
    DataRegister.x.writers_write, DataRegister.x.readers_read, DataRegister.x.indexModes_read, fun s v k => ?_⟩
  · obtain ⟨hr, hmode⟩ := not_or.mp h
    exact DataRegister.x.ignores_put i s v hr hmode nofun
  · exact ⟨setZN v s.p, s.mem.setByteAt k.toNat v, rfl, rfl, Memory.byteAt_setByteAt_same ..⟩

/-- Settles O47: Y as one of the three data registers. -/
theorem indexYIsUsedByItsListOnly : Obligations.IndexYIsUsedByItsListOnly := by
  refine ⟨fun i s t hexec hw => DataRegister.y.get_of_exec hexec hw nofun, fun i s v h => ?_,
    DataRegister.y.writers_write, DataRegister.y.readers_read, DataRegister.y.indexModes_read, fun s v k => ?_⟩
  · obtain ⟨hr, hmode⟩ := not_or.mp h
    exact DataRegister.y.ignores_put i s v hr hmode nofun
  · exact ⟨setZN v s.p, s.mem.setByteAt k.toNat v, rfl, rfl, Memory.byteAt_setByteAt_same ..⟩

end Sys2Proof.Machine

/-! PROOF. The memory reads of any sequence of writes (R50, R59), and the stack's pushes and pulls (R55, R56) in the
terms of the statements: where each byte goes, and what SP becomes. -/

namespace Sys2Proof.Machine

/-! ## One byte write, and any sequence of them -/

/-- A byte write is what the statements call one byte stored. -/
theorem State.oneByteStored_write (s : State) (k : Addr) (v : Byte) : OneByteStored s (s.write k v).mem k v :=
  fun j => (s.read_write k j v).trans (if_congr eq_comm rfl rfl)

/-- The last write to an address decides what a read of it returns. -/
theorem State.read_foldl_write (ws : List (Addr × Byte)) (s : State) (k : Addr) :
    (ws.foldl (fun u w => u.write w.1 w.2) s).read k =
      ((ws.reverse.find? fun w => w.1 == k).map (·.2)).getD (s.read k) := by
  induction ws using List.reverseRecOn with
  | nil => rfl
  | append_singleton ws w ih =>
    rw [List.foldl_concat, State.read_write, ih, List.reverse_concat]
    by_cases hk : w.1 = k
    · rw [if_pos hk, List.find?_cons_of_pos (by simpa using hk)]
      rfl
    · rw [if_neg hk, List.find?_cons_of_neg (by simpa using hk)]

/-- Writes leave every register. -/
theorem State.foldl_write_frame (ws : List (Addr × Byte)) (s : State) :
    ws.foldl (fun u w => u.write w.1 w.2) s =
      { s with mem := (ws.foldl (fun u w => u.write w.1 w.2) s).mem } := by
  induction ws generalizing s with
  | nil => rfl
  | cons w ws ih => exact ih (s.write w.1 w.2)

theorem State.read_reset (k : Addr) : State.reset.read k = 0x00 := rfl

/-- Settles O17: the last write wins by induction on the writes, and an address that none names keeps its byte. -/
theorem memoryReturnsTheLastWrite : Obligations.MemoryReturnsTheLastWrite := by
  intro ws s t
  refine ⟨State.read_foldl_write ws s, State.foldl_write_frame ws s, ?_⟩
  rintro rfl k hk
  have hnone : (ws.reverse.find? fun w => w.1 == k) = none :=
    List.find?_eq_none.mpr fun w hw => by simpa using hk w (List.mem_reverse.mp hw)
  rw [State.read_foldl_write, hnone]
  exact State.read_reset k

/-! ## The stack -/

@[simp] theorem stackAddr_toNat (p : Byte) : (stackAddr p).toNat = 256 + p.toNat := by
  unfold stackAddr
  bv_omega

theorem toNat_sub_one (p : Byte) : (p - 1).toNat = (p.toNat + 255) % 256 := by bv_omega

theorem toNat_add_one (p : Byte) : (p + 1).toNat = (p.toNat + 1) % 256 := by bv_omega

@[simp] theorem highByte_toNat (w : Addr) : (highByte w).toNat = w.toNat / 256 := by
  simp only [highByte, BitVec.toNat_ofNat]
  omega

@[simp] theorem lowByte_toNat (w : Addr) : (lowByte w).toNat = w.toNat % 256 := BitVec.toNat_ofNat ..

/-- The two bytes of a 16-bit push never meet, at the wrap of SP either. -/
theorem stackAddr_sub_one_ne (p : Byte) : stackAddr (p - 1) ≠ stackAddr p := by
  rw [ne_eq, stackAddr_inj]
  bv_omega

@[simp] theorem State.read_push8 (s : State) (v : Byte) (j : Addr) :
    (s.push8 v).read j = if stackAddr s.sp = j then v else s.read j := State.read_write s _ j v

/-- Everything a 16-bit push does to reads. -/
theorem State.read_push16 (s : State) (w : Addr) (j : Addr) :
    (s.push16 w).read j =
      if stackAddr (s.sp - 1) = j then lowByte w else if stackAddr s.sp = j then highByte w else s.read j := by
  rw [State.push16, State.read_push8, State.read_push8, State.push8_eq]

theorem State.read_push16_high (s : State) (w : Addr) : (s.push16 w).read (stackAddr s.sp) = highByte w := by
  rw [State.read_push16, if_neg (stackAddr_sub_one_ne s.sp), if_pos rfl]

theorem State.read_push16_low (s : State) (w : Addr) : (s.push16 w).read (stackAddr (s.sp - 1)) = lowByte w := by
  rw [State.read_push16, if_pos rfl]

/-- A pull right after a push of 16 bits returns the value and SP, and leaves the two bytes where they are (R56). -/
theorem State.pull16_push16 (s : State) (w : Addr) :
    (s.push16 w).pull16 = (w, { s with mem := (s.push16 w).mem }) := by
  have hsp : (s.push16 w).sp = s.sp - 1 - 1 := rfl
  rw [State.pull16_eq, hsp, BitVec.sub_add_cancel, BitVec.sub_add_cancel, State.read_push16_high, State.read_push16_low,
    hiLo_high_low]
  rfl

/-- Settles O23: the byte goes to the stack address of the old SP, and comes from that of the new one. -/
theorem pushAndPullOneByte : Obligations.PushAndPullOneByte := by
  intro s v
  constructor
  · exact ⟨_, stackAddr s.sp, s.sp - 1, s.push8_eq v, stackAddr_toNat _, s.oneByteStored_write _ v, toNat_sub_one _⟩
  · exact ⟨stackAddr (s.sp + 1), s.sp + 1, s.pull8_eq, stackAddr_toNat _, toNat_add_one _⟩

/-- Settles O24: the two bytes lie at different addresses for every SP, so the pull finds both. -/
theorem pushWordThenPullWordIsTheIdentity : Obligations.PushWordThenPullWordIsTheIdentity := by
  intro s w
  have hhigh : ((s.push16 w).read (stackAddr s.sp)).toNat = w.toNat / 256 := by
    rw [State.read_push16_high, highByte_toNat]
  have hlow : ((s.push16 w).read (stackAddr (s.sp - 1))).toNat = w.toNat % 256 := by
    rw [State.read_push16_low, lowByte_toNat]
  refine ⟨(s.push16 w).mem, stackAddr s.sp, stackAddr (s.sp - 1), s.sp - 1 - 1, rfl, stackAddr_toNat _, ?_, ?_, hhigh,
    hlow, fun j hk hk' => ?_, s.pull16_push16 w⟩
  · rw [stackAddr_toNat, toNat_sub_one]
  · rw [toNat_sub_one, toNat_sub_one]
    omega
  · exact (s.read_push16 w j).trans (by rw [if_neg hk'.symm, if_neg hk.symm])

end Sys2Proof.Machine

/-! PROOF. Which operand kinds each handler takes (R99), and the step as the transition of R80 under any parameters. -/

namespace Sys2Proof.Machine

/-! ## Completion and contract violation, handler by handler -/

/-- The handler completes on every operand of these kinds, and on any other reports a contract violation. -/
def Handler.Takes (h : Handler) (kinds : OperandKind → Bool) : Prop :=
  ∀ o len s, (kinds o.kind = true ∧ ∃ t, h o len s = .next t) ∨
    (kinds o.kind = false ∧ h o len s = reportContractViolation s)

theorem Handler.Takes.completes {h : Handler} {kinds : OperandKind → Bool} {o : Operand} (ht : h.Takes kinds)
    (hk : kinds o.kind = true) (len : Nat) (s : State) : ∃ t, h o len s = .next t := by
  rcases ht o len s with ⟨-, hnext⟩ | ⟨hno, -⟩
  · exact hnext
  · exact absurd hk (by simp [hno])

theorem Handler.Takes.violates {h : Handler} {kinds : OperandKind → Bool} {o : Operand} (ht : h.Takes kinds)
    (hk : kinds o.kind = false) (len : Nat) (s : State) :
    h o len s = .fault (.contractViolation (s.read s.pc) s.pc) := by
  rcases ht o len s with ⟨hyes, -⟩ | ⟨-, hfault⟩
  · exact absurd hk (by simp [hyes])
  · exact hfault

/-- A handler that completes without an operand and reports a violation on the other three. -/
theorem Handler.Takes.of_none {h : Handler} (hnone : ∀ len s, ∃ t, h .none len s = .next t)
    (hacc : ∀ len s, h .acc len s = reportContractViolation s)
    (hconst : ∀ v len s, h (.const v) len s = reportContractViolation s)
    (haddr : ∀ k len s, h (.addr k) len s = reportContractViolation s) : h.Takes (· == .none) := by
  intro o len s
  cases o with
  | none => exact .inl ⟨rfl, hnone len s⟩
  | acc => exact .inr ⟨rfl, hacc len s⟩
  | const v => exact .inr ⟨rfl, hconst v len s⟩
  | addr k => exact .inr ⟨rfl, haddr k len s⟩

/-- A handler that completes on an address and reports a violation on the other three. -/
theorem Handler.Takes.of_addr {h : Handler} (haddr : ∀ k len s, ∃ t, h (.addr k) len s = .next t)
    (hnone : ∀ len s, h .none len s = reportContractViolation s)
    (hacc : ∀ len s, h .acc len s = reportContractViolation s)
    (hconst : ∀ v len s, h (.const v) len s = reportContractViolation s) : h.Takes (· == .addr) := by
  intro o len s
  cases o with
  | addr k => exact .inl ⟨rfl, haddr k len s⟩
  | none => exact .inr ⟨rfl, hnone len s⟩
  | acc => exact .inr ⟨rfl, hacc len s⟩
  | const v => exact .inr ⟨rfl, hconst v len s⟩

theorem impliedHandler_takes (e : State → State) : (impliedHandler e).Takes (· == .none) :=
  .of_none (fun _ _ => ⟨_, rfl⟩) (fun _ _ => rfl) (fun _ _ _ => rfl) fun _ _ _ => rfl

theorem valueHandler_takes (e : Byte → State → State) : (valueHandler e).Takes takesValue := by
  intro o len s
  cases o with
  | const _ | addr _ => exact .inl ⟨rfl, _, rfl⟩
  | none | acc => exact .inr ⟨rfl, rfl⟩

theorem storeHandler_takes (value : State → Byte) : (storeHandler value).Takes (· == .addr) :=
  .of_addr (fun _ _ _ => ⟨_, rfl⟩) (fun _ _ => rfl) (fun _ _ => rfl) fun _ _ _ => rfl

theorem memoryCounterHandler_takes (compute : Byte → Byte) : (memoryCounterHandler compute).Takes (· == .addr) :=
  .of_addr (fun _ _ _ => ⟨_, rfl⟩) (fun _ _ => rfl) (fun _ _ => rfl) fun _ _ _ => rfl

theorem branchHandler_takes (b : StatusBit) (v : Bool) : (branchHandler b v).Takes (· == .addr) :=
  .of_addr (fun _ _ _ => ⟨_, rfl⟩) (fun _ _ => rfl) (fun _ _ => rfl) fun _ _ _ => rfl

theorem handleAsl_takes : handleAsl.Takes takesLocation := by
  intro o len s
  cases o with
  | acc | addr _ => exact .inl ⟨rfl, _, rfl⟩
  | none | const _ => exact .inr ⟨rfl, rfl⟩

theorem handleJmp_takes : handleJmp.Takes (· == .addr) :=
  .of_addr (fun _ _ _ => ⟨_, rfl⟩) (fun _ _ => rfl) (fun _ _ => rfl) fun _ _ _ => rfl

theorem handleJsr_takes : handleJsr.Takes (· == .addr) :=
  .of_addr (fun _ _ _ => ⟨_, rfl⟩) (fun _ _ => rfl) (fun _ _ => rfl) fun _ _ _ => rfl

theorem handleRts_takes : handleRts.Takes (· == .none) :=
  .of_none (fun _ _ => ⟨_, rfl⟩) (fun _ _ => rfl) (fun _ _ _ => rfl) fun _ _ _ => rfl

/-- Under any parameters an operation's handler takes the kinds that `Accepts` gives the operation (R99). -/
theorem handlerOf_takes (cfg : Config) (o : Operation) (f : Form) :
    (handlerOf cfg (o.instr f)).Takes (accepts o) := by
  cases o with
  | lda | ldx | ldy | cmp | cpx | cpy => exact valueHandler_takes _
  | sta | stx | sty => exact storeHandler_takes _
  -- The counter functions are named: unification would run their arithmetic to find them.
  | inc => exact memoryCounterHandler_takes fun v => v + 1
  | dec => exact memoryCounterHandler_takes fun v => v - 1
  | bcc | bcs | bne | beq | bvc | bvs | bpl | bmi => exact branchHandler_takes _ _
  | asl => exact handleAsl_takes
  | jmp => exact handleJmp_takes
  | jsr => exact handleJsr_takes
  | rts => exact handleRts_takes
  | _ => exact impliedHandler_takes _

/-! ## The step of R80 -/

theorem State.fetch_of_lookup_eq_none {s : State} {cat : List CatalogRow} (h : lookup cat (s.read s.pc) = none) :
    s.fetch cat = .undefined (s.read s.pc) := by
  simp [State.fetch, decodeBytes, h]

theorem State.fetch_of_lookup_eq_some {s : State} {cat : List CatalogRow} {r : CatalogRow}
    (h : lookup cat (s.read s.pc) = some r) :
    s.fetch cat = r.operation.instr (r.mode.form (s.read (s.pc + 1)) (s.read (s.pc + 2))) := by
  simp [State.fetch, decodeBytes, h]

/-- Under any parameters, running an operation at a form is resolving the form and running the operation's handler. -/
theorem execWith_instr (cfg : Config) (o : Operation) (f : Form) (s : State) :
    execWith cfg (o.instr f) s = handlerOf cfg (o.instr f) (resolve cfg f s) (1 + f.mode.operandBytes) s := by
  rw [execWith, runForm, form_instr, Form.length]

theorem execWith_undefined (cfg : Config) (op : Byte) (s : State) :
    execWith cfg (.undefined op) s = .refused (.undefinedOpcode op s.pc) := rfl

/-- Settles O3: a defined opcode's step is its handler's answer, and the handler takes the kinds its operation accepts. -/
theorem stepIsTheSpecsTransition : Obligations.StepIsTheSpecsTransition := by
  refine ⟨step_eq_stepWith, fun cfg s => ⟨fun hnone => ?_, fun r hsome => ?_⟩⟩
  · rw [stepWith, State.fetch_of_lookup_eq_none hnone]
    exact execWith_undefined cfg _ s
  · intro f opnd
    have hstep : stepWith cfg s = handlerOf cfg (r.operation.instr f) opnd (1 + r.mode.operandBytes) s := by
      rw [stepWith, State.fetch_of_lookup_eq_some hsome, execWith_instr, mode_form]
    have htakes := handlerOf_takes cfg r.operation f
    rw [hstep]
    refine ⟨fun hno => htakes.violates hno _ s, fun hyes => ?_⟩
    obtain ⟨t, ht⟩ := htakes.completes hyes (1 + r.mode.operandBytes) s
    exact ⟨t, ht, ht⟩

/-! ## The accepted kinds of R99 -/

theorem takesValue_iff {k : OperandKind} : takesValue k = true ↔ k = .const ∨ k = .addr := by
  cases k <;> decide

theorem takesLocation_iff {k : OperandKind} : takesLocation k = true ↔ k = .acc ∨ k = .addr := by
  cases k <;> decide

/-- An entry of the default catalog has a mode whose kind its operation accepts. -/
theorem accepts_of_mem_defaultCatalog : ∀ r ∈ defaultCatalog, accepts r.operation r.mode.kind = true := by
  decide

/-- Settles O4: the accepted kinds operation by operation; `exec` is the operation's handler, which takes those kinds. -/
theorem everyAcceptedOperandCompletes : Obligations.EveryAcceptedOperandCompletes := by
  refine ⟨fun o k => ?_, fun o f s => ?_, accepts_of_mem_defaultCatalog⟩
  · cases o <;> simp [accepts, takesValue_iff, takesLocation_iff]
  · have htakes := handlerOf_takes Config.default o f
    rw [exec_instr]
    exact ⟨fun hyes => htakes.completes hyes _ s, fun hno => htakes.violates hno _ s⟩

end Sys2Proof.Machine

/-! PROOF. What the decoder answers, and that the opcode byte alone tells how many bytes it takes (R83). -/

namespace Sys2Proof

/-- If the decoder answers, the first byte is an undefined opcode taken alone, or a catalog entry's whose operand bytes
are there and are taken with it. -/
theorem decodeWith_ok {cat : List CatalogRow} {bytes rest : List Byte} {i : Instr}
    (h : decodeWith cat bytes = .ok (i, rest)) :
    ∃ op q, bytes = op :: q ∧
      ((lookup cat op = none ∧ i = .undefined op ∧ rest = q) ∨
        ∃ r, lookup cat op = some r ∧ r.mode.operandBytes ≤ q.length ∧
          i = r.operation.instr (r.mode.form (q.getD 0 0) (q.getD 1 0)) ∧ rest = q.drop r.mode.operandBytes) := by
  cases bytes with
  | nil => cases h
  | cons op q =>
    refine ⟨op, q, rfl, ?_⟩
    simp only [decodeWith] at h
    cases hl : lookup cat op with
    | none =>
      simp only [hl] at h
      cases h
      exact .inl ⟨rfl, rfl, rfl⟩
    | some r =>
      simp only [hl] at h
      split at h
      next hlen =>
        cases h
        exact .inr ⟨r, rfl, hlen, rfl, rfl⟩
      next => cases h

@[simp] theorem length_instr_form (o : Operation) (m : AddrMode) (b1 b2 : Byte) :
    (o.instr (m.form b1 b2)).length = 1 + m.operandBytes := by
  rw [Instr.length, form_instr, Form.length, mode_form]

/-- The length of what a sequence decodes to, from its opcode byte alone. -/
theorem length_of_decodeWith {cat : List CatalogRow} {op : Byte} {q rest : List Byte} {i : Instr}
    (h : decodeWith cat (op :: q) = .ok (i, rest)) :
    i.length = (lookup cat op).elim 1 fun r => 1 + r.mode.operandBytes := by
  obtain ⟨_, _, hcons, hcase⟩ := decodeWith_ok h
  cases hcons
  rcases hcase with ⟨hl, rfl, -⟩ | ⟨r, hl, -, rfl, -⟩
  · rw [hl]
    rfl
  · rw [hl, length_instr_form]
    rfl

/-- Settles O10: the table of R83 mode by mode, and the lengths from what the decoder takes. -/
theorem decodedLengthIsOnePlusOperandBytes : Obligations.DecodedLengthIsOnePlusOperandBytes := by
  refine ⟨fun m => ?_, fun bytes rest i o hdecode ho => ⟨rfl, ?_⟩, fun op q q' rest rest' i i' h h' => ?_⟩
  · cases m <;> decide
  · obtain ⟨op, q, rfl, ⟨-, rfl, -⟩ | ⟨r, -, hlen, rfl, rfl⟩⟩ := decodeWith_ok hdecode
    · cases ho
    · rw [length_instr_form, form_instr, mode_form, Nat.add_comm 1, List.drop_succ_cons, List.length_cons,
        List.length_drop]
      exact ⟨rfl, by omega⟩
  · rw [length_of_decodeWith h, length_of_decodeWith h']

end Sys2Proof

/-! PROOF. The addresses that the modes without a pointer resolve to (R86 to R95), as numbers. -/

namespace Sys2Proof.Machine

@[simp] theorem zext16_toNat (b : Byte) : (zext16 b).toNat = b.toNat := by
  unfold zext16
  bv_omega

theorem zeroPageIndexed_toNat (b index : Byte) :
    (zeroPageIndexed b index).toNat = (b.toNat + index.toNat) % 256 := by
  rw [zeroPageIndexed, zext16_toNat, BitVec.toNat_add]

/-- Adding a register to a two-byte operand address wraps at the end of memory (R94, R95). -/
theorem hiLo_add_zext16_toNat (hi lo index : Byte) :
    (hiLo hi lo + zext16 index).toNat = (hi.toNat * 256 + lo.toNat + index.toNat) % 65536 := by
  rw [BitVec.toNat_add, hiLo_toNat, zext16_toNat]

/-- The branch target counts the displacement as signed, from the next instruction on (R92). -/
theorem branchTarget_toNat (pc : Addr) (b : Byte) :
    ((branchTarget pc b).toNat : Int) = ((pc.toNat : Int) + 2 + b.toInt) % 65536 := by
  have hsext : ((sext16 b).toNat : Int) = b.toInt % 65536 := by
    rw [sext16, BitVec.signExtend, BitVec.toNat_ofInt]
    omega
  have htwo : (2 : Addr).toNat = 2 := rfl
  rw [branchTarget, BitVec.toNat_add, BitVec.toNat_add, htwo]
  omega

/-- Settles O13: each mode resolves by its own rule. -/
theorem unindexedModesResolve : Obligations.UnindexedModesResolve := by
  intro cfg s b1 b2
  exact ⟨rfl, rfl, rfl, rfl, rfl, rfl, ⟨zext16 b1, rfl, zext16_toNat b1⟩, rfl, ⟨hiLo b2 b1, rfl, hiLo_toNat b2 b1⟩, rfl⟩

/-- Settles O14: the indexed addresses, with the sums' wraps. -/
theorem indexedModesWrap : Obligations.IndexedModesWrap := by
  intro cfg s b1 b2
  exact ⟨⟨_, rfl, zeroPageIndexed_toNat b1 s.x⟩, rfl, ⟨_, rfl, zeroPageIndexed_toNat b1 s.y⟩, rfl,
    ⟨_, rfl, hiLo_add_zext16_toNat b2 b1 s.x⟩, rfl, ⟨_, rfl, hiLo_add_zext16_toNat b2 b1 s.y⟩, rfl⟩

/-- The displacement 0xFE, -2, makes a branch its own target. -/
theorem branchTarget_neg_two (pc : Addr) : branchTarget pc 0xFE = pc := by
  have hsext : sext16 0xFE = 0xFFFE := by decide
  rw [branchTarget, hsext]
  bv_omega

theorem branchTarget_zero (pc : Addr) : branchTarget pc 0x00 = pc + 2 := by
  have hsext : sext16 0x00 = 0 := by decide
  rw [branchTarget, hsext]
  exact BitVec.add_zero _

/-- Settles O15: the branch target as a number, and its two boundary displacements. -/
theorem relativeOperandIsSignedFromTheNextInstruction :
    Obligations.RelativeOperandIsSignedFromTheNextInstruction := by
  refine ⟨rfl, fun cfg s b1 b2 => ⟨b1.le_toInt, Int.le_of_lt_add_one b1.toInt_lt, branchTarget s.pc b1, rfl,
    branchTarget_toNat s.pc b1, ?_, ?_⟩, fun o => ?_⟩
  · rintro rfl
    exact branchTarget_neg_two s.pc
  · rintro rfl
    exact branchTarget_zero s.pc
  · cases o <;> decide

end Sys2Proof.Machine

/-! PROOF. The stack pointer (R29): the operations on the stack both write it and read it, TXS writes it, TSX reads it, and
no other operation has to do with it. -/

namespace Sys2Proof.Machine

/-- The pushes and the pulls of one byte and of two: they write SP and read it. -/
def stackOperations : List Operation := [.pha, .php, .pla, .plp, .jsr, .rts]

/-- The operations that write SP (R29). -/
def spWriters : List Operation := stackOperations ++ [.txs]

/-- The operations that read SP (R29, less TXS by R145). -/
def spReaders : List Operation := stackOperations ++ [.tsx]

theorem mem_spWriters {o : Operation} : o ∈ spWriters ↔ o ∈ stackOperations ∨ o = .txs := by
  rw [spWriters, List.mem_append, List.mem_singleton]

theorem mem_spReaders {o : Operation} : o ∈ spReaders ↔ o ∈ stackOperations ∨ o = .tsx := by
  rw [spReaders, List.mem_append, List.mem_singleton]

/-! ## What leaves SP, and what takes no part in it -/

theorem registerChange_setSP (v : Byte) : RegisterChange (State.setSP · v) :=
  ⟨fun _ => rfl, fun _ => rfl, fun _ _ => rfl⟩

/-- No mode's operand depends on SP. -/
theorem resolve_setSP (cfg : Config) (f : Form) (s : State) (v : Byte) :
    resolve cfg f (s.setSP v) = resolve cfg f s := by
  cases f <;> rfl

/-- An operation that is no writer of SP leaves it. -/
theorem handlerOf_onlyAdvances_sp {o : Operation} (f : Form) (opnd : Operand) (hw : o ∉ spWriters) :
    Handler.OnlyAdvances State.sp (handlerOf Config.default (o.instr f)) opnd := by
  cases o with
  | pha | php | pla | plp | jsr | rts | txs => simp [mem_spWriters, stackOperations] at hw
  | lda | ldx | ldy | cmp | cpx | cpy => exact valueHandler_onlyAdvances fun _ _ _ => rfl
  | sta | stx | sty => exact storeHandler_onlyAdvances fun _ _ _ _ => rfl
  | inc | dec =>
    dsimp only [Operation.instr, handlerOf]
    exact memoryCounterHandler_onlyAdvances fun _ _ _ _ => rfl
  | bcc | bcs | bne | beq | bvc | bvs | bpl | bmi => exact branchHandler_onlyAdvances fun _ _ _ => rfl
  | asl => exact handleAsl_onlyAdvances (fun _ _ _ _ _ => rfl) fun _ _ _ _ _ => rfl
  | jmp => exact handleJmp_onlyAdvances fun _ _ _ => rfl
  | _ => exact impliedHandler_onlyAdvances fun _ _ => rfl

/-- An operation that neither writes SP nor reads it takes a value put into SP on to its next state. -/
theorem handlerOf_carries_setSP {o : Operation} (f : Form) (opnd : Operand) (v : Byte) (hw : o ∉ spWriters)
    (hr : o ∉ spReaders) :
    Handler.Carries (State.setSP · v) (State.setSP · v) (handlerOf Config.default (o.instr f)) opnd := by
  have hc := registerChange_setSP v
  cases o with
  | pha | php | pla | plp | jsr | rts | txs => simp [mem_spWriters, stackOperations] at hw
  | tsx => simp [mem_spReaders] at hr
  | lda | ldx | ldy | cmp | cpx | cpy => exact valueHandler_carries hc hc fun _ _ => rfl
  | sta | stx | sty => exact storeHandler_carries hc hc fun _ _ => rfl
  | inc | dec =>
    dsimp only [Operation.instr, handlerOf]
    exact memoryCounterHandler_carries hc hc fun _ _ _ => rfl
  | bcc | bcs | bne | beq | bvc | bvs | bpl | bmi =>
    exact branchHandler_carries hc (fun _ => rfl) fun _ _ => rfl
  | asl => exact handleAsl_carries hc hc (fun _ _ => rfl) fun _ _ _ => rfl
  | jmp => exact handleJmp_carries hc fun _ _ => rfl
  | _ => exact impliedHandler_carries hc hc fun _ => rfl

/-- TXS writes over a value put into SP (R145). -/
theorem handleTxs_carries_setSP (opnd : Operand) (v : Byte) : Handler.Carries (State.setSP · v) id handleTxs opnd :=
  impliedHandler_carries (registerChange_setSP v) .of_id fun _ => rfl

/-- An instruction that is no writer of SP leaves it. -/
theorem sp_of_exec {i : Instr} {s t : State} (hexec : exec i s = .next t) (hw : ¬ OneOf spWriters i) : t.sp = s.sp := by
  obtain ⟨o, f, rfl, h⟩ := exec_next hexec
  rw [oneOf_instr] at hw
  exact handlerOf_onlyAdvances_sp f _ hw _ s t h

/-- An instruction that is no reader of SP ignores it: TXS, the one writer among these, has it from X. -/
theorem ignores_setSP (i : Instr) (s : State) (v : Byte) (hr : ¬ OneOf spReaders i) :
    Ignores i s (OneOf spWriters i) (State.setSP · v) := by
  rcases eq_instr_or_eq_undefined i with ⟨o, f, rfl⟩ | ⟨op, rfl⟩
  · rw [oneOf_instr] at hr ⊢
    have hres := resolve_setSP Config.default f s v
    by_cases hw : o ∈ spWriters
    · obtain rfl : o = .txs := (mem_spWriters.mp hw).resolve_left fun hstack => hr (mem_spReaders.mpr (.inl hstack))
      exact ignores_of_carries hres (handleTxs_carries_setSP _ v) (fun _ => rfl) (absurd hw)
    · exact ignores_of_carries hres (handlerOf_carries_setSP f _ v hw hr) (absurd · hw) fun _ => rfl
  · exact ⟨fun _ => rfl, fun _ => rfl⟩

/-! ## The reset state shows every access of SP -/

theorem inv_reset : State.reset.Inv := ⟨by decide, by decide⟩

theorem spWriters_write : ∀ o ∈ spWriters, ∃ f, (o.instr f).WellFormed ∧ Writes (o.instr f) State.sp := by
  have h : ∀ o ∈ spWriters,
      (answer (o.instr (firstForm o)) State.reset).any (fun t => t.sp != State.reset.sp) = true := by decide
  exact fun o ho => ⟨firstForm o, wellFormed_firstForm o, writes_of_answer inv_reset (h o ho)⟩

/-- An operation on the stack shows the SP it found in the one it leaves; TSX shows it in X. -/
theorem spReaders_read : ∀ o ∈ spReaders, ∃ f, (o.instr f).WellFormed ∧
    Reads (o.instr f) (OneOf spWriters (o.instr f)) fun (v : Byte) s => s.setSP v := by
  have hstack : ∀ o ∈ stackOperations, answer (o.instr (firstForm o)) (State.reset.setSP 0) ≠
      (answer (o.instr (firstForm o)) State.reset).map id := by decide
  have htsx : answer (.tsx .implied) (State.reset.setSP 0) ≠
      (answer (.tsx .implied) State.reset).map (State.setSP · 0) := by decide
  intro o ho
  refine ⟨firstForm o, wellFormed_firstForm o, ?_⟩
  rcases mem_spReaders.mp ho with hmem | rfl
  · have hwrites : OneOf spWriters (o.instr (firstForm o)) := oneOf_instr.mpr (mem_spWriters.mpr (.inl hmem))
    exact reads_of_answer inv_reset (fun _ => rfl) (absurd hwrites) (hstack o hmem)
  · have hnot : ¬ OneOf spWriters (Operation.tsx.instr (firstForm .tsx)) := mt oneOf_instr.mp (by decide)
    exact reads_of_answer inv_reset (absurd · hnot) (fun _ => rfl) htsx

/-- Settles O48: the writers and readers by the shape of their handlers, the wraps by the rules of push and pull. -/
theorem stackPointerIsUsedByItsListOnly : Obligations.StackPointerIsUsedByItsListOnly := by
  refine ⟨fun i s t hexec hw => sp_of_exec hexec hw, ignores_setSP, spWriters_write, spReaders_read, fun s v => ?_⟩
  exact ⟨toNat_sub_one s.sp, (s.read_push8 v (stackAddr s.sp)).trans (if_pos rfl), toNat_add_one s.sp, rfl⟩

end Sys2Proof.Machine

/-! PROOF. The counters (R164): the wrapped result and the status byte as the statement names them are those the
handlers compute, on a register and on a memory byte. -/

namespace Sys2Proof.Machine

/-! ## The statement's bytes are the model's -/

/-- The bits listed and the rest kept determine the status byte. -/
theorem StatusAfter.unique {p q q' : Byte} {written : List (StatusBit × Bool)} (h : StatusAfter p q written)
    (h' : StatusAfter p q' written) : q = q' :=
  status_ext fun b => (h b).trans (h' b).symm

theorem StatusAfter.eq_setZN {p q r : Byte} (h : StatusAfter p q [(.zero, decide (r = 0)), (.negative, r.getLsbD 7)]) :
    q = setZN r p :=
  h.unique (statusAfter_setZN r p)

theorem eq_add_one_of_toNat {r v : Byte} (h : r.toNat = (v.toNat + 1) % 256) : r = v + 1 :=
  BitVec.eq_of_toNat_eq (h.trans (toNat_add_one v).symm)

theorem eq_sub_one_of_toNat {r v : Byte} (h : r.toNat = (v.toNat + 255) % 256) : r = v - 1 :=
  BitVec.eq_of_toNat_eq (h.trans (toNat_sub_one v).symm)

/-! ## What each counter answers -/

theorem exec_inx (s : State) :
    exec (.inx .implied) s = .next { s with x := s.x + 1, p := setZN (s.x + 1) s.p, pc := s.pc + 1 } := rfl

theorem exec_dex (s : State) :
    exec (.dex .implied) s = .next { s with x := s.x - 1, p := setZN (s.x - 1) s.p, pc := s.pc + 1 } := rfl

theorem exec_iny (s : State) :
    exec (.iny .implied) s = .next { s with y := s.y + 1, p := setZN (s.y + 1) s.p, pc := s.pc + 1 } := rfl

theorem exec_dey (s : State) :
    exec (.dey .implied) s = .next { s with y := s.y - 1, p := setZN (s.y - 1) s.p, pc := s.pc + 1 } := rfl

theorem exec_inc (f : Form) (s : State) :
    exec (.inc f) s = runForm Config.default (memoryCounterHandler fun v => v + 1) f s := rfl

theorem exec_dec (f : Form) (s : State) :
    exec (.dec f) s = runForm Config.default (memoryCounterHandler fun v => v - 1) f s := rfl

/-- A memory counter at a resolved address stores the result there, writes P by SetZN of it, and advances PC. -/
theorem runForm_memoryCounterHandler {compute : Byte → Byte} {f : Form} {s : State} {k : Addr} {r : Byte}
    (hk : OperandAt f s k) (hr : r = compute (s.read k)) :
    ∃ m, runForm Config.default (memoryCounterHandler compute) f s =
        .next { s with mem := m, p := setZN r s.p, pc := s.pcAfter f } ∧ OneByteStored s m k r := by
  refine ⟨(s.write k r).mem, ?_, s.oneByteStored_write k r⟩
  rw [runForm, hk, hr]
  rfl

/-- Settles O31: the result and the status byte are those the handlers compute, so each counter's equation applies. -/
theorem countersWrapModulo256 : Obligations.CountersWrapModulo256 := by
  intro s r q hq
  obtain rfl := hq.eq_setZN
  refine ⟨fun hr => ?_, fun hr => ?_, fun hr => ?_, fun hr => ?_, fun f k hk hr => ?_, fun f k hk hr => ?_⟩
  · exact eq_add_one_of_toNat hr ▸ exec_inx s
  · exact eq_sub_one_of_toNat hr ▸ exec_dex s
  · exact eq_add_one_of_toNat hr ▸ exec_iny s
  · exact eq_sub_one_of_toNat hr ▸ exec_dey s
  · rw [exec_inc]
    exact runForm_memoryCounterHandler hk (eq_add_one_of_toNat hr)
  · rw [exec_dec]
    exact runForm_memoryCounterHandler hk (eq_sub_one_of_toNat hr)

end Sys2Proof.Machine

/-! PROOF. The compares (R193): the compare law in the terms of the statements, and what an operation on an operand's
value answers. -/

namespace Sys2Proof.Machine

/-! ## The compare law on the status byte -/

/-- Bit 7 of a byte difference, in the wrapped arithmetic that R193 names. -/
theorem msb_sub (r m : Byte) : (r - m).msb = decide (128 ≤ (r.toNat + 256 - m.toNat) % 256) := by
  have hsub : (r - m).toNat = (r.toNat + 256 - m.toNat) % 256 := by
    rw [BitVec.toNat_sub]
    omega
  rw [BitVec.msb_eq_decide, hsub]

/-- The bits of a status byte that comparing `r` with `m` leaves, listed as R193 lists them. -/
theorem statusAfter_compareFlags (r m p : Byte) :
    StatusAfter p (compareFlags r m p)
      [(.carry, decide (m.toNat ≤ r.toNat)), (.zero, decide (r = m)),
        (.negative, decide (128 ≤ (r.toNat + 256 - m.toNat) % 256))] := by
  intro b
  rw [statusBit_compareFlags]
  cases b with
  | negative => exact msb_sub r m
  | zero => exact beq_eq_decide r m
  | _ => rfl

/-! ## Operations on a value -/

theorem OperandIs.operandValue_eq {f : Form} {s : State} {v : Byte} (h : OperandIs f s v) :
    operandValue (resolve Config.default f s) s = some v := by
  rcases h with hconst | ⟨k, haddr, hread⟩
  · rw [hconst, operandValue]
  · rw [haddr, operandValue, hread]

/-- An operation on a value answers its effect of the operand's value, advanced by the length. -/
theorem runForm_valueHandler {e : Byte → State → State} {f : Form} {s : State} {v : Byte} (h : OperandIs f s v) :
    runForm Config.default (valueHandler e) f s = .next ((e v s).advance f.length) := by
  simp only [runForm, valueHandler, h.operandValue_eq]

/-- A compare of the register `reg` writes P by the compare law and advances PC (R193). -/
theorem runForm_compare (reg : State → Byte) {f : Form} {s : State} {m : Byte} (h : OperandIs f s m) :
    runForm Config.default (valueHandler fun m s => s.setP (compareFlags (reg s) m s.p)) f s =
      .next { s with p := compareFlags (reg s) m s.p, pc := s.pcAfter f } :=
  runForm_valueHandler h

/-- Settles O33: each compare answers the compare law's own status byte, whose bits are known one by one. -/
theorem comparesSetCarryZeroNegativeOnly : Obligations.ComparesSetCarryZeroNegativeOnly := by
  intro f s m h
  refine ⟨⟨_, ?_, statusAfter_compareFlags s.a m s.p⟩, ⟨_, ?_, statusAfter_compareFlags s.x m s.p⟩,
    ⟨_, ?_, statusAfter_compareFlags s.y m s.p⟩⟩
  · exact runForm_compare State.a h
  · exact runForm_compare State.x h
  · exact runForm_compare State.y h

end Sys2Proof.Machine

/-! PROOF. The branches (R240): a branch whose operand is an address writes PC alone, and at Relative that address is the
branch target. -/

namespace Sys2Proof.Machine

/-- The address at the signed displacement from the next instruction is the branch target, and no other is (R92). -/
theorem eq_branchTarget_of_toNat {pc t : Addr} {b : Byte}
    (ht : (t.toNat : Int) = ((pc.toNat : Int) + 2 + b.toInt) % 65536) : t = branchTarget pc b :=
  BitVec.eq_of_toNat_eq (Int.ofNat.inj (ht.trans (branchTarget_toNat pc b).symm))

/-- A branch at a resolved address puts PC there if its flag has the polarity, past the instruction otherwise, and writes
nothing else (R240). -/
theorem runForm_branchHandler {c : StatusBit} {polarity : Bool} {f : Form} {s : State} {t : Addr} (h : OperandAt f s t) :
    runForm Config.default (branchHandler c polarity) f s =
      .next { s with pc := if s.flag c = polarity then t else s.pcAfter f } := by
  rw [runForm, h, branchHandler]
  split <;> rfl

/-- What R240 asks of an operation holds of each whose handler is a branch. -/
theorem relativeBranch {o : Operation} {c : StatusBit} {polarity : Bool}
    (ho : ∀ f, handlerOf Config.default (o.instr f) = branchHandler c polarity) {s : State} {b : Byte} {t : Addr}
    (ht : (t.toNat : Int) = ((s.pc.toNat : Int) + 2 + b.toInt) % 65536) :
    exec (o.instr (.relative b)) s = .next { s with pc := if s.flag c = polarity then t else s.pc + 2 } ∧
      (b = 0xFE → t = s.pc) ∧ (b = 0x00 → t = s.pc + 2) := by
  obtain rfl := eq_branchTarget_of_toNat ht
  refine ⟨?_, ?_, ?_⟩
  · rw [exec_instr, ho]
    exact runForm_branchHandler rfl
  · rintro rfl
    exact branchTarget_neg_two s.pc
  · rintro rfl
    exact branchTarget_zero s.pc

/-- Settles O37: each branch's handler tests one flag for one polarity. -/
theorem branchesTakeTheResolvedAddressOrAdvance : Obligations.BranchesTakeTheResolvedAddressOrAdvance := by
  simp only [Obligations.BranchesTakeTheResolvedAddressOrAdvance, List.forall_mem_cons]
  exact ⟨⟨.carry, false, fun _ _ _ => relativeBranch fun _ => rfl⟩,
    ⟨.carry, true, fun _ _ _ => relativeBranch fun _ => rfl⟩,
    ⟨.zero, false, fun _ _ _ => relativeBranch fun _ => rfl⟩,
    ⟨.zero, true, fun _ _ _ => relativeBranch fun _ => rfl⟩,
    ⟨.overflow, false, fun _ _ _ => relativeBranch fun _ => rfl⟩,
    ⟨.overflow, true, fun _ _ _ => relativeBranch fun _ => rfl⟩,
    ⟨.negative, false, fun _ _ _ => relativeBranch fun _ => rfl⟩,
    ⟨.negative, true, fun _ _ _ => relativeBranch fun _ => rfl⟩, List.forall_mem_nil _⟩

end Sys2Proof.Machine

/-! PROOF. What stops the engine under the default catalog (R271): an undefined opcode at PC, and nothing else. -/

namespace Sys2Proof.Machine

theorem accepts_of_lookup_eq_some {op : Byte} {r : CatalogRow} (h : lookup defaultCatalog op = some r) :
    accepts r.operation r.mode.kind = true :=
  accepts_of_mem_defaultCatalog r (List.mem_of_find?_eq_some h)

/-- A byte at PC without an entry is reported as an undefined opcode (R281). -/
theorem stopped_of_lookup_eq_none {s : State} (h : lookup defaultCatalog (s.read s.pc) = none) : Stopped s := by
  obtain ⟨hundefined, -⟩ := stepIsTheSpecsTransition.2 Config.default s
  rw [Stopped, step_eq_stepWith]
  exact hundefined h

/-- An entry's operand kind is one its operation accepts, so the step has no mismatch to report. -/
theorem runs_of_lookup_eq_some {s : State} {r : CatalogRow} (h : lookup defaultCatalog (s.read s.pc) = some r) :
    Runs s := by
  obtain ⟨-, hdefined⟩ := stepIsTheSpecsTransition.2 Config.default s
  obtain ⟨-, hcompletes⟩ := hdefined r h
  have haccepts := accepts_of_lookup_eq_some h
  rw [resolve_kind, mode_form] at hcompletes
  obtain ⟨t, ht, -⟩ := hcompletes haccepts
  exact ⟨t, (step_eq_stepWith s).trans ht⟩

/-- Settles O6: the byte at PC has an entry of the catalog, and the step runs, or has none, and the step stops. -/
theorem onlyAnUndefinedOpcodeStopsTheEngine : Obligations.OnlyAnUndefinedOpcodeStopsTheEngine := by
  intro s
  cases h : lookup defaultCatalog (s.read s.pc) with
  | none => exact .inr ⟨stopped_of_lookup_eq_none h, rfl⟩
  | some r => exact .inl ⟨runs_of_lookup_eq_some h, Option.some_ne_none r⟩

end Sys2Proof.Machine

/-! PROOF. What the host's Step does with a step's outcome (R285), and the 164 undefined opcodes (R101, R281): the bytes
R101 lists are those without a catalog entry, and those are the bytes at which the step stops. -/

namespace Sys2Proof.Machine

/-! ## The host's Step, outcome by outcome -/

theorem perform_step_of_next {cfg : Config} {s t : State} (h : stepWith cfg s = .next t) :
    perform cfg .step s = (.ok, t) := by
  simp only [perform, h]

theorem perform_step_of_refused {cfg : Config} {s : State} {r : Refusal} (h : stepWith cfg s = .refused r) :
    perform cfg .step s = (.stopped r, s) := by
  simp only [perform, h]

theorem perform_step_of_fault {cfg : Config} {s : State} {r : Fault} (h : stepWith cfg s = .fault r) :
    perform cfg .step s = (.faulted r, s) := by
  simp only [perform, h]

/-- Settles O7: of a step's three outcomes only a next state is replied to with ok. -/
theorem aStepThatIsNotOkChangesNothing : Obligations.AStepThatIsNotOkChangesNothing := by
  refine fun cfg s => ⟨fun hreply => ?_, fun _ => perform_step_of_refused, fun _ => perform_step_of_fault⟩
  cases h : stepWith cfg s with
  | next t => exact absurd (congrArg Prod.fst (perform_step_of_next h)) hreply
  | refused r => rw [perform_step_of_refused h]
  | fault r => rw [perform_step_of_fault h]

/-! ## The undefined opcodes -/

theorem mem_undefinedOpcodes {op : Byte} : op ∈ undefinedOpcodes ↔ lookup defaultCatalog op = none := by
  rw [← List.contains_iff_mem, ← lookup_isNone, Option.isNone_iff_eq_none]

theorem not_stopped_of_runs {s : State} (h : Runs s) : ¬ Stopped s := by
  obtain ⟨t, hnext⟩ := h
  rw [Stopped, hnext]
  nofun

/-- The step stops exactly at a byte without an entry of the catalog (R101, R281). -/
theorem stopped_iff {s : State} : Stopped s ↔ lookup defaultCatalog (s.read s.pc) = none := by
  refine ⟨fun hstopped => ?_, stopped_of_lookup_eq_none⟩
  cases h : lookup defaultCatalog (s.read s.pc) with
  | none => rfl
  | some r => exact absurd hstopped (not_stopped_of_runs (runs_of_lookup_eq_some h))

theorem outcomeCode_of_stopped {s : State} (h : Stopped s) : outcomeCode (step s) = 1 := by
  rw [h, outcomeCode]

theorem perform_step_of_stopped {s : State} (h : Stopped s) :
    perform Config.default .step s = (.stopped (.undefinedOpcode (s.read s.pc) s.pc), s) :=
  perform_step_of_refused ((step_eq_stepWith s).symm.trans h)

/-- Settles O5: the listed bytes are those without a catalog entry, where the step stops, and a stop writes nothing. -/
theorem undefinedOpcodeStopsWithNothingChanged : Obligations.UndefinedOpcodeStopsWithNothingChanged := by
  refine ⟨fun s => mem_undefinedOpcodes.trans stopped_iff.symm, fun _ _ => rfl, fun s hlisted => ?_⟩
  have hstopped : Stopped s := stopped_iff.mpr (mem_undefinedOpcodes.mp hlisted)
  exact ⟨outcomeCode_of_stopped hstopped, perform_step_of_stopped hstopped⟩

end Sys2Proof.Machine

/-! PROOF. What the host's Load and Inspect leave unchanged (R313): a load, whatever LOAD_OVERRUN says, only stores bytes, so
every register stays. -/

namespace Sys2Proof.Machine

/-- A load that is not refused stores one byte sequence from its address on, the given one or, truncated, its start. -/
theorem load_eq_some {policy : LoadOverrun} {k : Addr} {bytes : List Byte} {s t : State}
    (h : load policy k bytes s = some t) : ∃ n, t = s.storeBytes k (bytes.take n) := by
  have hwhole : s.storeBytes k bytes = s.storeBytes k (bytes.take bytes.length) := by rw [List.take_length]
  unfold load at h
  split at h
  · exact ⟨bytes.length, (Option.some.inj h).symm.trans hwhole⟩
  · cases policy with
    | refuse => nomatch h
    | wrap => exact ⟨bytes.length, (Option.some.inj h).symm.trans hwhole⟩
    | truncate => exact ⟨65536 - k.toNat, (Option.some.inj h).symm⟩

theorem perform_load_of_some {cfg : Config} {k : Addr} {bytes : List Byte} {s t : State}
    (h : load cfg.loadOverrun k bytes s = some t) : perform cfg (.load k bytes) s = (.ok, t) := by
  simp only [perform, h]

theorem perform_load_of_none {cfg : Config} {k : Addr} {bytes : List Byte} {s : State}
    (h : load cfg.loadOverrun k bytes s = none) : perform cfg (.load k bytes) s = (.loadRefused, s) := by
  simp only [perform, h]

/-- Load writes memory alone. -/
theorem perform_load_frame (cfg : Config) (k : Addr) (bytes : List Byte) (s : State) :
    (perform cfg (.load k bytes) s).2 = { s with mem := (perform cfg (.load k bytes) s).2.mem } := by
  cases h : load cfg.loadOverrun k bytes s with
  | none => rw [perform_load_of_none h]
  | some t =>
    obtain ⟨n, rfl⟩ := load_eq_some h
    rw [perform_load_of_some h]
    exact State.storeBytes_frame s k _

/-- Settles O51: Inspect's view is read field by field from the state it returns, and Load's frame is memory alone. -/
theorem inspectReadsAndChangesNothing : Obligations.InspectReadsAndChangesNothing :=
  fun cfg s k => ⟨rfl, fun bytes => perform_load_frame cfg k bytes s⟩

end Sys2Proof.Machine

/-! PROOF. The round trip between instructions and bytes (R82, R100, R101): the catalog's two tables agree entry by entry,
and a form's operand bytes are those its mode makes it of. -/

namespace Sys2Proof

/-! ## The catalog, read both ways -/

/-- No opcode byte stands in two entries. -/
theorem lookup_opcode_of_mem : ∀ r ∈ defaultCatalog, lookup defaultCatalog r.opcode = some r := by
  decide

/-- No operation has two entries at one mode. -/
theorem opcodeOf_of_mem : ∀ r ∈ defaultCatalog, opcodeOf r.operation r.mode = some r.opcode := by
  decide

theorem lookup_eq_some {cat : List CatalogRow} {op : Byte} {r : CatalogRow} (h : lookup cat op = some r) :
    r ∈ cat ∧ r.opcode = op := by
  unfold lookup at h
  have hop := List.find?_some h
  exact ⟨List.mem_of_find?_eq_some h, eq_of_beq hop⟩

/-- The opcode byte of an operation at a mode looks up to an entry of that operation at that mode. -/
theorem lookup_of_opcodeOf {o : Operation} {m : AddrMode} {op : Byte} (h : opcodeOf o m = some op) :
    ∃ r, lookup defaultCatalog op = some r ∧ r.operation = o ∧ r.mode = m := by
  obtain ⟨r, hfind, rfl⟩ := Option.map_eq_some_iff.mp h
  have hmem := List.mem_of_find?_eq_some hfind
  have hrow := List.find?_some hfind
  simp only [Bool.and_eq_true, beq_iff_eq] at hrow
  exact ⟨r, lookup_opcode_of_mem r hmem, hrow⟩

/-! ## Operand bytes -/

/-- A form that a mode makes of two bytes has as many of them for its operand bytes as the mode takes (R83). -/
theorem bytes_form (m : AddrMode) (b1 b2 : Byte) : (m.form b1 b2).bytes = [b1, b2].take m.operandBytes := by
  cases m with
  | absolute | absoluteX | absoluteY | indirect =>
    simp [AddrMode.form, Form.bytes, AddrMode.operandBytes]
  | _ => rfl

theorem operandBytes_le_two (m : AddrMode) : m.operandBytes ≤ 2 := by
  cases m <;> decide

/-- The first two bytes of a sequence, padded, are its own as far as it has them. -/
theorem take_getD_pair {q : List Byte} {n : Nat} (hn : n ≤ 2) (h : n ≤ q.length) :
    [q.getD 0 0, q.getD 1 0].take n = q.take n := by
  match n, q, hn, h with
  | 0, _, _, _ => rfl
  | 1, _ :: _, _, _ => rfl
  | 2, _ :: _ :: _, _, _ => rfl

/-- The bytes after an opcode are the operand bytes of the form made of them, and the rest. -/
theorem bytes_form_append {m : AddrMode} {q : List Byte} (h : m.operandBytes ≤ q.length) :
    (m.form (q.getD 0 0) (q.getD 1 0)).bytes ++ q.drop m.operandBytes = q := by
  rw [bytes_form, take_getD_pair (operandBytes_le_two m) h, List.take_append_drop]

/-- A form's mode makes it again of its operand bytes. -/
theorem form_bytes (f : Form) (rest : List Byte) :
    f.mode.form ((f.bytes ++ rest).getD 0 0) ((f.bytes ++ rest).getD 1 0) = f := by
  cases f with
  | absolute w | absoluteX w | absoluteY w | indirect w => simp [Form.mode, AddrMode.form, Form.bytes]
  | _ => rfl

theorem drop_bytes_append (f : Form) (rest : List Byte) : (f.bytes ++ rest).drop f.mode.operandBytes = rest := by
  rw [← bytes_length, List.drop_left]

/-! ## Encoding and decoding an operation at a form -/

theorem encode_instr (o : Operation) (f : Form) : encode (o.instr f) = encodeOperation o f := by
  cases o <;> rfl

theorem check_instr (o : Operation) (f : Form) :
    (o.instr f).check = if o.modes.contains f.mode then none else some .modeNotOfOperation := by
  cases o <;> rfl

theorem wellFormed_instr {o : Operation} {f : Form} : (o.instr f).WellFormed ↔ f.mode ∈ o.modes := by
  simp [Instr.WellFormed, check_instr]

theorem wellFormed_undefined {op : Byte} : (Instr.undefined op).WellFormed ↔ lookup defaultCatalog op = none := by
  simp [Instr.WellFormed, Instr.check, ← Machine.mem_undefinedOpcodes]

theorem exists_opcodeOf {o : Operation} {m : AddrMode} (h : m ∈ o.modes) : ∃ op, opcodeOf o m = some op := by
  rw [← Option.isSome_iff_exists, opcodeOf_isSome, List.contains_iff_mem]
  exact h

theorem decodeWith_of_lookup_eq_none {cat : List CatalogRow} {op : Byte} (rest : List Byte) (h : lookup cat op = none) :
    decodeWith cat (op :: rest) = .ok (.undefined op, rest) := by
  simp only [decodeWith, h]

/-- The decoder reads an entry's operation from its opcode byte and the operand bytes of a form at its mode. -/
theorem decodeWith_form {cat : List CatalogRow} {op : Byte} {r : CatalogRow} {f : Form} (rest : List Byte)
    (h : lookup cat op = some r) (hm : r.mode = f.mode) :
    decodeWith cat (op :: (f.bytes ++ rest)) = .ok (r.operation.instr f, rest) := by
  have hlen : f.mode.operandBytes ≤ (f.bytes ++ rest).length := by
    rw [List.length_append, bytes_length]
    exact Nat.le_add_right ..
  simp only [decodeWith, h, hm, if_pos hlen, form_bytes, drop_bytes_append]

/-- Settles O8: the encoder's opcode byte looks up to the entry it was taken from, and the form is made again of its
bytes. -/
theorem decodeOfEncode : Obligations.DecodeOfEncode := by
  intro i rest hwf
  rcases Machine.eq_instr_or_eq_undefined i with ⟨o, f, rfl⟩ | ⟨op, rfl⟩
  · obtain ⟨op, hop⟩ := exists_opcodeOf (wellFormed_instr.mp hwf)
    obtain ⟨r, hlookup, rfl, hmode⟩ := lookup_of_opcodeOf hop
    rw [encode_instr, encodeOperation_eq hop]
    exact decodeWith_form rest hlookup hmode
  · exact decodeWith_of_lookup_eq_none rest (wellFormed_undefined.mp hwf)

/-- Settles O9: the entry that the decoder found is the one the encoder finds, and no operand byte is lost in the form. -/
theorem encodeOfDecode : Obligations.EncodeOfDecode := by
  intro bytes rest i hdecode
  obtain ⟨op, q, rfl, ⟨hlookup, rfl, rfl⟩ | ⟨r, hlookup, hlen, rfl, rfl⟩⟩ := decodeWith_ok hdecode
  · exact ⟨wellFormed_undefined.mpr hlookup, rfl⟩
  · obtain ⟨hmem, rfl⟩ := lookup_eq_some hlookup
    have hop := opcodeOf_of_mem r hmem
    constructor
    · rw [wellFormed_instr, mode_form, ← List.contains_iff_mem, ← opcodeOf_isSome, hop]
      rfl
    · rw [encode_instr, encodeOperation_eq (by rw [mode_form, hop]), List.cons_append, bytes_form_append hlen]

end Sys2Proof

/-! PROOF. The status bits by position (R32), and what exec answers for loads, stores, the shift, transfers and
no-operation, in the terms of the statements. -/

namespace Sys2Proof.Machine

/-! ## The status bits -/

/-- Writing a bit of P writes that bit (R32). -/
theorem statusAfter_setStatusBit (p : Byte) (b : StatusBit) (v : Bool) : StatusAfter p (setStatusBit p b v) [(b, v)] := by
  intro c
  rw [statusBit_setStatusBit]
  by_cases h : b = c
  · simp [h]
  · simp [h, List.lookup_cons, beq_false_of_ne (Ne.symm h)]

/-- The bits of a status byte that shifting `v` left leaves, listed as R180 lists them. -/
theorem statusAfter_shiftLeftFlags (v p : Byte) :
    StatusAfter p (shiftLeftFlags v p)
      [(.carry, v.getLsbD 7), (.zero, decide (v <<< 1 = 0)), (.negative, (v <<< 1).getLsbD 7)] := by
  intro b
  rw [statusBit_shiftLeftFlags, BitVec.msb_eq_getLsbD_last, BitVec.msb_eq_getLsbD_last]
  cases b with
  | zero => exact beq_eq_decide (v <<< 1) 0
  | _ => rfl

/-- Settles O26: each named bit is defined by its position, and its write is a write of P. -/
theorem statusBitLayout : Obligations.StatusBitLayout :=
  ⟨fun _ => ⟨rfl, rfl, rfl, rfl, rfl, rfl, rfl, rfl⟩, fun s b v => ⟨_, rfl, statusAfter_setStatusBit s.p b v⟩⟩

/-! ## Loads, stores and the shift -/

/-- Settles O27: one status byte serves the three loads. -/
theorem loadsWriteTheRegisterZeroNegative : Obligations.LoadsWriteTheRegisterZeroNegative := fun _ s v h =>
  ⟨setZN v s.p, statusAfter_setZN v s.p, runForm_valueHandler (e := fun v u => (u.setA v).setZN v) h,
    runForm_valueHandler (e := fun v u => (u.setX v).setZN v) h,
    runForm_valueHandler (e := fun v u => (u.setY v).setZN v) h⟩

/-- A store at a resolved address stores the register's byte there and advances PC (R123). -/
theorem runForm_storeHandler (value : State → Byte) {f : Form} {s : State} {k : Addr} (hk : OperandAt f s k) :
    ∃ m, runForm Config.default (storeHandler value) f s = .next { s with mem := m, pc := s.pcAfter f } ∧
      OneByteStored s m k (value s) := by
  refine ⟨(s.write k (value s)).mem, ?_, s.oneByteStored_write k (value s)⟩
  rw [runForm, hk]
  rfl

/-- Settles O28: each store's handler stores its own register. -/
theorem storesWriteOneByteAndNoFlag : Obligations.StoresWriteOneByteAndNoFlag := fun _ _ _ hk =>
  ⟨runForm_storeHandler State.a hk, runForm_storeHandler State.x hk, runForm_storeHandler State.y hk⟩

theorem eq_shiftLeft_one_of_toNat {r v : Byte} (h : r.toNat = (v.toNat * 2) % 256) : r = v <<< 1 := by
  apply BitVec.eq_of_toNat_eq
  rw [h, BitVec.toNat_shiftLeft, Nat.shiftLeft_eq]

/-- ASL at a resolved address doubles the byte there, writes P by the shift's flags, and advances PC (R180). -/
theorem exec_asl_of_operandAt {f : Form} {s : State} {k : Addr} (hk : OperandAt f s k) :
    ∃ m, exec (.asl f) s = .next { s with mem := m, p := shiftLeftFlags (s.read k) s.p, pc := s.pcAfter f } ∧
      OneByteStored s m k (s.read k <<< 1) := by
  refine ⟨(s.write k (s.read k <<< 1)).mem, ?_, s.oneByteStored_write k _⟩
  rw [exec, execAsl, runForm, hk]
  rfl

/-- Settles O32: the result and the status byte are those the shift computes, on either operand. -/
theorem shiftLeftWritesCarryZeroNegative : Obligations.ShiftLeftWritesCarryZeroNegative := by
  intro s v r q hr hq
  obtain rfl := eq_shiftLeft_one_of_toNat hr
  obtain rfl := hq.unique (statusAfter_shiftLeftFlags v s.p)
  constructor
  · rintro rfl
    rfl
  · rintro f k hk rfl
    exact exec_asl_of_operandAt hk

/-! ## Transfers and no-operation -/

/-- Settles O29: each transfer writes P by SetZN of its source. -/
theorem transfersCopyAndSetZeroNegative : Obligations.TransfersCopyAndSetZeroNegative := fun s =>
  ⟨⟨_, rfl, statusAfter_setZN s.a s.p⟩, ⟨_, rfl, statusAfter_setZN s.x s.p⟩, ⟨_, rfl, statusAfter_setZN s.a s.p⟩,
    ⟨_, rfl, statusAfter_setZN s.y s.p⟩⟩

/-- Settles O30: the two handlers write a register and PC. -/
theorem stackPointerTransfersWriteNoFlag : Obligations.StackPointerTransfersWriteNoFlag := fun _ => ⟨rfl, rfl⟩

/-- Settles O43: the address one further is PC plus the length 1. -/
theorem noOperationAdvancesOnly : Obligations.NoOperationAdvancesOnly := by
  intro s w hw
  obtain rfl : w = s.pc + 1 := BitVec.eq_of_toNat_eq (hw.trans (s.advance_pc_toNat 1).symm)
  rfl

end Sys2Proof.Machine

/-! PROOF. The stack instructions and the control flow in the terms of the statements: the addresses that the statements
give as numbers are the stack addresses of SP, and each instruction is a push or a pull between two writes of PC. -/

namespace Sys2Proof.Machine

/-! ## The statements' numbers are the model's words -/

theorem eq_stackAddr_of_toNat {k : Addr} {p : Byte} (h : k.toNat = 256 + p.toNat) : k = stackAddr p :=
  BitVec.eq_of_toNat_eq (h.trans (stackAddr_toNat p).symm)

theorem eq_sub_two_of_toNat {q p : Byte} (h : q.toNat = (p.toNat + 254) % 256) : q = p - 1 - 1 :=
  eq_sub_one_of_toNat (by rw [h, toNat_sub_one]; omega)

theorem eq_add_two_of_toNat {q p : Byte} (h : q.toNat = (p.toNat + 2) % 256) : q = p + 1 + 1 :=
  eq_add_one_of_toNat (by rw [h, toNat_add_one]; omega)

/-- The address of a call's last byte is one before the next instruction (R243). -/
theorem eq_lastByte_of_toNat {s : State} {f : Form} {ret : Addr} (h : ret.toNat = (s.pc.toNat + f.length - 1) % 65536) :
    ret = s.pcAfter f - 1 := by
  apply BitVec.eq_of_toNat_eq
  have hlen : 1 ≤ f.length := Nat.le_add_right ..
  have hone : (1 : Addr).toNat = 1 := rfl
  have hafter : (s.pcAfter f).toNat = (s.pc.toNat + f.length) % 65536 := s.advance_pc_toNat f.length
  rw [h, BitVec.toNat_sub, hafter, hone]
  omega

theorem eq_hiLo_add_one_of_toNat {w : Addr} {hi lo : Byte} (h : w.toNat = (hi.toNat * 256 + lo.toNat + 1) % 65536) :
    w = hiLo hi lo + 1 := by
  apply BitVec.eq_of_toNat_eq
  have hone : (1 : Addr).toNat = 1 := rfl
  rw [h, BitVec.toNat_add, hiLo_toNat, hone]

/-! ## Pushes and pulls of one byte (R220 to R223) -/

/-- Settles O35: the two handlers push one byte each. -/
theorem pushesStoreTheRegister : Obligations.PushesStoreTheRegister := by
  intro s k q hk hq
  obtain rfl := eq_stackAddr_of_toNat hk
  obtain rfl := eq_sub_one_of_toNat hq
  exact ⟨⟨_, rfl, s.oneByteStored_write _ s.a⟩, ⟨_, rfl, s.oneByteStored_write _ s.p⟩⟩

/-- Pull status takes every bit from the pulled byte but the stub bit, which it keeps 1 (R223, R34). -/
theorem statusAfter_pulledStatus (v : Byte) : StatusAfter v (pulledStatus false v) [(.stub, true)] := by
  intro b
  rw [statusBit_pulledStatus]
  cases b <;> rfl

/-- Settles O36: the pulled byte is the one at the stack address of the new SP. -/
theorem pullsReadTheStackByte : Obligations.PullsReadTheStackByte := by
  intro s k q hq hk
  obtain rfl := eq_stackAddr_of_toNat hk
  obtain rfl := eq_add_one_of_toNat hq
  exact ⟨⟨_, rfl, statusAfter_setZN _ s.p⟩, ⟨_, rfl, statusAfter_pulledStatus _⟩, rfl⟩

/-! ## Branches and jumps -/

/-- Settles O38: each branch's handler by its own flag and polarity. -/
theorem branchFlagsAndPolarities : Obligations.BranchFlagsAndPolarities := fun _ _ _ ht =>
  ⟨runForm_branchHandler ht, runForm_branchHandler ht, runForm_branchHandler ht, runForm_branchHandler ht,
    runForm_branchHandler ht, runForm_branchHandler ht, runForm_branchHandler ht, runForm_branchHandler ht⟩

/-- Settles O39: the handler of JMP at a resolved address is a write of PC. -/
theorem jumpSetsProgramCounterOnly : Obligations.JumpSetsProgramCounterOnly := by
  intro f s t ht
  rw [exec, execJmp, runForm, ht]
  rfl

/-- JSR at a resolved address pushes the address of its last byte and jumps (R243). -/
theorem exec_jsr_of_operandAt {f : Form} {s : State} {t : Addr} (ht : OperandAt f s t) :
    exec (.jsr f) s = .next ((s.push16 (s.pcAfter f - 1)).setPC t) := by
  rw [exec, execJsr, runForm, ht]
  rfl

/-- RTS pulls an address and goes on one after it (R244). -/
theorem exec_rts (s : State) : exec (.rts .implied) s = .next (s.pull16.2.setPC (s.pull16.1 + 1)) := rfl

/-- Settles O40: the return address is pushed as two bytes, which lie at different addresses. -/
theorem jumpToSubroutinePushesTheLastByteAddress : Obligations.JumpToSubroutinePushesTheLastByteAddress := by
  intro f s t ret k k' q ht hret hk hk' hq
  obtain rfl := eq_lastByte_of_toNat hret
  obtain rfl := eq_stackAddr_of_toNat hk
  obtain rfl := eq_stackAddr_of_toNat (hk'.trans (congrArg (256 + ·) (toNat_sub_one s.sp).symm))
  obtain rfl := eq_sub_two_of_toNat hq
  refine ⟨(s.push16 (s.pcAfter f - 1)).mem, exec_jsr_of_operandAt ht, ?_, ?_, fun j hj hj' => ?_⟩
  · exact (congrArg BitVec.toNat (s.read_push16_high _)).trans (highByte_toNat _)
  · exact (congrArg BitVec.toNat (s.read_push16_low _)).trans (lowByte_toNat _)
  · exact (s.read_push16 _ j).trans (by rw [if_neg hj'.symm, if_neg hj.symm])

/-- Settles O41: the two pulled bytes lie at the stack addresses of the next two values of SP. -/
theorem returnFromSubroutinePullsAndAddsOne : Obligations.ReturnFromSubroutinePullsAndAddsOne := by
  intro s k k' w q hk hk' hq hw
  obtain rfl := eq_add_two_of_toNat hq
  obtain rfl := eq_stackAddr_of_toNat (hk.trans (congrArg (256 + ·) (toNat_add_one s.sp).symm))
  obtain rfl := eq_stackAddr_of_toNat (hk'.trans (congrArg (256 + ·) hq.symm))
  obtain rfl := eq_hiLo_add_one_of_toNat hw
  exact exec_rts s

/-- A state with SP and the two stack bytes as a 16-bit push left them pulls the pushed value (R56). -/
theorem State.pull16_of_pushed {s u : State} {w : Addr} (hsp : u.sp = (s.push16 w).sp)
    (hhigh : u.read (stackAddr s.sp) = (s.push16 w).read (stackAddr s.sp))
    (hlow : u.read (stackAddr (s.sp - 1)) = (s.push16 w).read (stackAddr (s.sp - 1))) :
    u.pull16 = (w, u.setSP s.sp) := by
  have husp : u.sp = s.sp - 1 - 1 := hsp
  rw [State.pull16_eq, husp, BitVec.sub_add_cancel, BitVec.sub_add_cancel, hhigh, hlow, State.read_push16_high,
    State.read_push16_low, hiLo_high_low]
  rfl

/-- Settles O42: what RTS pulls is the address JSR pushed, PC + 2, and one after it is the next instruction. -/
theorem callThenReturnComesBackAfterTheCall : Obligations.CallThenReturnComesBackAfterTheCall := by
  intro s w
  refine ⟨_, exec_jsr_of_operandAt rfl, rfl, fun u hsp hhigh hlow => ?_⟩
  have hpull := State.pull16_of_pushed hsp hhigh hlow
  rw [exec_rts, hpull, BitVec.sub_add_cancel]
  rfl

end Sys2Proof.Machine

/-! PROOF. The pointer modes (R96, R97, R98): the addresses that the statement gives as numbers are those whose bytes the
resolver reads, under both values of their parameters. -/

namespace Sys2Proof.Machine

/-- The next address of a pointer's bytes, with a 16-bit carry (R54). -/
theorem State.read16_toNat {s : State} {p p' : Addr} (h : p'.toNat = (p.toNat + 1) % 65536) :
    (s.read16 p).toNat = (s.read p').toNat * 256 + (s.read p).toNat := by
  obtain rfl : p' = p + 1 := BitVec.eq_of_toNat_eq h
  exact hiLo_toNat ..

/-- The pointer of Indirect: its high byte is at the next address, or with the page wrap at the next of its page (R96). -/
theorem indirectTarget_toNat {wrap : Bool} {s : State} {b1 b2 : Byte} {p p' : Addr}
    (hp : p.toNat = b2.toNat * 256 + b1.toNat)
    (hp' : p'.toNat = if wrap = true then b2.toNat * 256 + (b1.toNat + 1) % 256
      else (b2.toNat * 256 + b1.toNat + 1) % 65536) :
    (indirectTarget wrap (hiLo b2 b1) s).toNat = (s.read p').toNat * 256 + (s.read p).toNat := by
  obtain rfl : p = hiLo b2 b1 := BitVec.eq_of_toNat_eq (hp.trans (hiLo_toNat b2 b1).symm)
  cases wrap with
  | true =>
    obtain rfl : p' = hiLo b2 (b1 + 1) :=
      BitVec.eq_of_toNat_eq (hp'.trans (by rw [if_pos rfl, hiLo_toNat, toNat_add_one]))
    rw [indirectTarget, if_pos rfl, highByte_hiLo, lowByte_hiLo, hiLo_toNat]
  | false => exact State.read16_toNat (hp'.trans (by rw [if_neg (by decide), hiLo_toNat]))

/-- Indirect,X is the indexed zero-page address, or with the dereference the pointer there, in page 0 (R97). -/
theorem indirectXAddr_toNat {deref : Bool} {s : State} {b : Byte} {p p' : Addr}
    (hp : p.toNat = (b.toNat + s.x.toNat) % 256) (hp' : p'.toNat = (b.toNat + s.x.toNat + 1) % 256) :
    (indirectXAddr deref b s).toNat =
      if deref = true then (s.read p').toNat * 256 + (s.read p).toNat else (b.toNat + s.x.toNat) % 256 := by
  cases deref with
  | true =>
    obtain rfl : p = zext16 (b + s.x) :=
      BitVec.eq_of_toNat_eq (hp.trans (zeroPageIndexed_toNat b s.x).symm)
    obtain rfl : p' = zext16 (b + s.x + 1) := by
      apply BitVec.eq_of_toNat_eq
      rw [hp', zext16_toNat, toNat_add_one, BitVec.toNat_add, Nat.mod_add_mod]
    exact hiLo_toNat ..
  | false => exact zeroPageIndexed_toNat b s.x

/-- Indirect,Y is the pointer at the zero-page byte, its high byte at the next address, plus Y (R98). -/
theorem indirectYAddr_toNat {s : State} {b : Byte} {p p' : Addr} (hp : p.toNat = b.toNat)
    (hp' : p'.toNat = b.toNat + 1) :
    (indirectYAddr b s).toNat = ((s.read p').toNat * 256 + (s.read p).toNat + s.y.toNat) % 65536 := by
  obtain rfl : p = zext16 b := BitVec.eq_of_toNat_eq (hp.trans (zext16_toNat b).symm)
  have hnext : p'.toNat = ((zext16 b).toNat + 1) % 65536 := by
    have hb := b.isLt
    rw [hp', hp]
    omega
  rw [indirectYAddr, BitVec.toNat_add, State.read16_toNat hnext, zext16_toNat]

/-- Settles O16: each pointer mode under either value of its parameter, and Indirect operation by operation. -/
theorem indirectModesResolve : Obligations.IndirectModesResolve := by
  refine ⟨fun cfg s b1 b2 => ⟨fun p p' hp hp' => ?_, fun p p' hp hp' => ?_, fun p p' hp hp' => ?_⟩, ⟨rfl, rfl⟩,
    fun o => ?_⟩
  · exact ⟨_, rfl, indirectTarget_toNat hp hp'⟩
  · exact ⟨_, rfl, indirectXAddr_toNat hp hp'⟩
  · exact ⟨_, rfl, indirectYAddr_toNat hp hp'⟩
  · cases o <;> decide

end Sys2Proof.Machine

/-! PROOF. The bits of P (R33): which instructions leave a bit, which take no part in one, and the two states that show
every access of one. -/

namespace Sys2Proof.Machine

/-! ## R33's table by operation -/

/-- The bits of P that an operation writes. -/
def statusWritten : Operation → List StatusBit
  | .lda | .ldx | .ldy | .tax | .txa | .tay | .tya | .inc | .dec | .inx | .iny | .dex | .dey | .pla => [.zero, .negative]
  | .asl | .cmp | .cpx | .cpy => [.carry, .zero, .negative]
  | .sec | .clc => [.carry]
  | .sei | .cli => [.interruptMask]
  | .sed | .cld => [.decimal]
  | .clv => [.overflow]
  | .plp => [.carry, .zero, .interruptMask, .decimal, .brk, .stub, .overflow, .negative]
  | _ => []

theorem mem_statusWritten {b : StatusBit} {o : Operation} : b ∈ statusWritten o ↔ o ∈ b.writers := by
  have h : ∀ o ∈ Operation.all, (b ∈ statusWritten o ↔ o ∈ b.writers) := by cases b <;> decide
  exact h o o.mem_all

theorem mem_statusWritten_plp (b : StatusBit) : b ∈ statusWritten .plp := by
  cases b <;> decide

/-- Push status pushes every bit of P (R221). -/
theorem php_mem_readers (b : StatusBit) : Operation.php ∈ b.readers := by
  cases b <;> decide

/-! ## What an operation does with a bit -/

/-- A bit is listed with a value exactly if it is among the listed bits. -/
theorem lookup_isSome_iff_mem {written : List (StatusBit × Bool)} {b : StatusBit} :
    (written.lookup b).isSome ↔ b ∈ written.map Prod.fst := by
  rw [List.lookup_isSome_iff, List.mem_map]
  exact exists_congr fun w => and_congr_right fun _ => beq_iff_eq.trans eq_comm

/-- A bit that is not listed is as it was. -/
theorem StatusAfter.bit_of_not_mem {p q : Byte} {written : List (StatusBit × Bool)} {b : StatusBit}
    (h : StatusAfter p q written) (hb : b ∉ written.map Prod.fst) : statusBit q b = statusBit p b := by
  rw [← lookup_isSome_iff_mem, Option.not_isSome_iff_eq_none] at hb
  rw [h b, hb, Option.getD_none]

/-- A computation that leaves the same listed bits on any status byte forgets what a listed bit was, and keeps what any
other bit was. -/
theorem apply_setStatusBit {F : Byte → Byte} {written : List (StatusBit × Bool)} (hF : ∀ p, StatusAfter p (F p) written)
    (p : Byte) (b : StatusBit) (v : Bool) :
    F (setStatusBit p b v) = if b ∈ written.map Prod.fst then F p else setStatusBit (F p) b v := by
  refine status_ext fun c => ?_
  rw [hF, statusBit_setStatusBit, apply_ite (statusBit · c), statusBit_setStatusBit, hF p c]
  by_cases hbc : b = c
  · subst hbc
    simp only [if_true, ← lookup_isSome_iff_mem]
    cases written.lookup b <;> rfl
  · rw [if_neg hbc, if_neg hbc, ite_self]

/-- An operation that does not write a bit leaves it, under any parameters. -/
theorem handlerOf_onlyAdvances_flag (cfg : Config) {o : Operation} {b : StatusBit} (f : Form) (opnd : Operand)
    (hb : b ∉ statusWritten o) : Handler.OnlyAdvances (State.flag · b) (handlerOf cfg (o.instr f)) opnd := by
  cases o with
  | lda | ldx | ldy => exact valueHandler_onlyAdvances fun v s _ => (statusAfter_setZN v s.p).bit_of_not_mem hb
  | cmp | cpx | cpy => exact valueHandler_onlyAdvances fun v s _ => (statusAfter_compareFlags _ v s.p).bit_of_not_mem hb
  | sta | stx | sty => exact storeHandler_onlyAdvances fun _ _ _ _ => rfl
  | inc | dec =>
    dsimp only [Operation.instr, handlerOf]
    exact memoryCounterHandler_onlyAdvances fun _ v s _ => (statusAfter_setZN v s.p).bit_of_not_mem hb
  | asl =>
    intro len s t h
    rcases handleAsl_next h with ⟨-, rfl⟩ | ⟨k, -, rfl⟩
    · exact (statusAfter_shiftLeftFlags s.a s.p).bit_of_not_mem hb
    · exact (statusAfter_shiftLeftFlags (s.read k) s.p).bit_of_not_mem hb
  | bcc | bcs | bne | beq | bvc | bvs | bpl | bmi => exact branchHandler_onlyAdvances fun _ _ _ => rfl
  | jmp => exact handleJmp_onlyAdvances fun _ _ _ => rfl
  | jsr => exact handleJsr_onlyAdvances fun _ _ _ _ => rfl
  | rts => exact handleRts_onlyAdvances fun _ _ _ => rfl
  | tax | txa | tay | tya | inx | iny | dex | dey | pla =>
    exact impliedHandler_onlyAdvances fun s _ => (statusAfter_setZN _ s.p).bit_of_not_mem hb
  | sec | clc | sei | cli | sed | cld | clv =>
    exact impliedHandler_onlyAdvances fun s _ => (statusAfter_setStatusBit s.p _ _).bit_of_not_mem hb
  | plp => exact absurd (mem_statusWritten_plp b) hb
  | tsx | txs | pha | php | nop => exact impliedHandler_onlyAdvances fun _ _ => rfl

/-- What a bit written before an operation is to its next state: nothing where the operation writes the bit, else the same
bit there. -/
def carriedFlag (b : StatusBit) (o : Operation) (v : Bool) : State → State :=
  if b ∈ statusWritten o then id else (State.setFlag · b v)

theorem carriedFlag_of_mem {b : StatusBit} {o : Operation} (v : Bool) (h : b ∈ statusWritten o) : carriedFlag b o v = id :=
  if_pos h

theorem carriedFlag_of_not_mem {b : StatusBit} {o : Operation} (v : Bool) (h : b ∉ statusWritten o) :
    carriedFlag b o v = (State.setFlag · b v) := if_neg h

theorem registerChange_setFlag (b : StatusBit) (v : Bool) : RegisterChange (State.setFlag · b v) :=
  ⟨fun _ => rfl, fun _ => rfl, fun _ _ => rfl⟩

theorem registerChange_carriedFlag (b : StatusBit) (o : Operation) (v : Bool) : RegisterChange (carriedFlag b o v) := by
  rw [carriedFlag]
  split
  · exact .of_id
  · exact registerChange_setFlag b v

section
variable {b : StatusBit} {o : Operation} {v : Bool}

/-- A status computation that writes the operation's bits, after a bit was written. -/
theorem setP_setStatusBit {F : Byte → Byte} {written : List (StatusBit × Bool)} (hF : ∀ p, StatusAfter p (F p) written)
    (ho : statusWritten o = written.map Prod.fst) (s : State) :
    s.setP (F (setStatusBit s.p b v)) = carriedFlag b o v (s.setP (F s.p)) := by
  rw [apply_setStatusBit hF, carriedFlag, ho]
  split <;> rfl

theorem setZN_setFlag (ho : statusWritten o = [.zero, .negative]) (r : Byte) (s : State) :
    (s.setFlag b v).setZN r = carriedFlag b o v (s.setZN r) := setP_setStatusBit (statusAfter_setZN r) ho s

theorem setFlag_setFlag {c : StatusBit} {w : Bool} (ho : statusWritten o = [c]) (s : State) :
    (s.setFlag b v).setFlag c w = carriedFlag b o v (s.setFlag c w) :=
  setP_setStatusBit (statusAfter_setStatusBit · c w) ho s

theorem setFlag_eq_carriedFlag (ho : statusWritten o = []) (s : State) : s.setFlag b v = carriedFlag b o v s := by
  rw [carriedFlag_of_not_mem v (ho ▸ List.not_mem_nil)]

theorem flag_setFlag_of_ne {c : StatusBit} (h : b ≠ c) (s : State) : (s.setFlag b v).flag c = s.flag c :=
  (statusBit_setStatusBit s.p b c v).trans (if_neg h)

end

/-- An operation that does not read a bit takes what was written to it on to its next state, or has lost it there. -/
theorem handlerOf_carries_setFlag {b : StatusBit} {o : Operation} (f : Form) (opnd : Operand) (v : Bool)
    (hr : o ∉ b.readers) :
    Handler.Carries (State.setFlag · b v) (carriedFlag b o v) (handlerOf Config.default (o.instr f)) opnd := by
  have hc := registerChange_setFlag b v
  have hg := registerChange_carriedFlag b o v
  cases o with
  | lda => exact valueHandler_carries hc hg fun r s => setZN_setFlag rfl r (s.setA r)
  | ldx => exact valueHandler_carries hc hg fun r s => setZN_setFlag rfl r (s.setX r)
  | ldy => exact valueHandler_carries hc hg fun r s => setZN_setFlag rfl r (s.setY r)
  | cmp | cpx | cpy =>
    exact valueHandler_carries hc hg fun m s => setP_setStatusBit (statusAfter_compareFlags _ m) rfl s
  | sta | stx | sty => exact storeHandler_carries hc hg fun k s => setFlag_eq_carriedFlag rfl (s.write k _)
  | inc | dec =>
    dsimp only [Operation.instr, handlerOf]
    exact memoryCounterHandler_carries hc hg fun k r s => setZN_setFlag rfl r (s.write k r)
  | asl =>
    exact handleAsl_carries hc hg (fun _ s => setP_setStatusBit (statusAfter_shiftLeftFlags s.a) rfl (s.setA _))
      fun k r s => setP_setStatusBit (statusAfter_shiftLeftFlags r) rfl (s.write k _)
  | bcc | bcs | bne | beq | bvc | bvs | bpl | bmi =>
    refine branchHandler_carries hc (flag_setFlag_of_ne ?_) fun s k => setFlag_eq_carriedFlag rfl (s.setPC k)
    rintro rfl
    exact hr (by decide)
  | jmp => exact handleJmp_carries hc fun s k => setFlag_eq_carriedFlag rfl (s.setPC k)
  | jsr => exact handleJsr_carries hc hg fun s w => setFlag_eq_carriedFlag rfl (s.push16 w)
  | rts => exact handleRts_carries hc hg (fun _ => rfl) fun s => setFlag_eq_carriedFlag rfl s.pull16.2
  | tax | inx | dex => exact impliedHandler_carries hc hg fun s => setZN_setFlag rfl _ (s.setX _)
  | tay | iny | dey => exact impliedHandler_carries hc hg fun s => setZN_setFlag rfl _ (s.setY _)
  | txa | tya => exact impliedHandler_carries hc hg fun s => setZN_setFlag rfl _ (s.setA _)
  | pla => exact impliedHandler_carries hc hg fun s => setZN_setFlag rfl s.pull8.1 (s.pull8.2.setA _)
  | sec | clc | sei | cli | sed | cld | clv => exact impliedHandler_carries hc hg fun s => setFlag_setFlag rfl s
  | plp =>
    rw [carriedFlag_of_mem v (mem_statusWritten_plp b)]
    exact impliedHandler_carries hc .of_id fun _ => rfl
  | php => exact absurd (php_mem_readers b) hr
  | tsx => exact impliedHandler_carries hc hg fun s => setFlag_eq_carriedFlag rfl (s.setX s.sp)
  | txs => exact impliedHandler_carries hc hg fun s => setFlag_eq_carriedFlag rfl (s.setSP s.x)
  | pha => exact impliedHandler_carries hc hg fun s => setFlag_eq_carriedFlag rfl (s.push8 s.a)
  | nop => exact impliedHandler_carries hc hg fun s => setFlag_eq_carriedFlag rfl s

/-! ## What an instruction does with a bit -/

/-- If an instruction answers a next state under some parameters, it is an operation at a form, and its handler answers
that state. -/
theorem execWith_next {cfg : Config} {i : Instr} {s t : State} (h : execWith cfg i s = .next t) :
    ∃ o f, i = Operation.instr o f ∧ handlerOf cfg (o.instr f) (resolve cfg f s) f.length s = .next t := by
  rcases eq_instr_or_eq_undefined i with ⟨o, f, rfl⟩ | ⟨op, rfl⟩
  · exact ⟨o, f, rfl, (execWith_instr cfg o f s).symm.trans h⟩
  · cases h

/-- An instruction that is no writer of a bit leaves it, under any parameters. -/
theorem flag_of_execWith {cfg : Config} {i : Instr} {s t : State} {b : StatusBit} (hexec : execWith cfg i s = .next t)
    (hw : ¬ OneOf b.writers i) : t.flag b = s.flag b := by
  obtain ⟨o, f, rfl, h⟩ := execWith_next hexec
  rw [oneOf_instr, ← mem_statusWritten] at hw
  exact handlerOf_onlyAdvances_flag cfg f _ hw _ s t h

theorem flag_of_exec {i : Instr} {s t : State} {b : StatusBit} (hexec : exec i s = .next t)
    (hw : ¬ OneOf b.writers i) : t.flag b = s.flag b :=
  flag_of_execWith ((exec_eq_execWith i s).symm.trans hexec) hw

/-- No mode's operand depends on P. -/
theorem resolve_setFlag (cfg : Config) (f : Form) (s : State) (b : StatusBit) (v : Bool) :
    resolve cfg f (s.setFlag b v) = resolve cfg f s := by
  cases f <;> rfl

/-- An instruction that is no reader of a bit ignores it. -/
theorem ignores_setFlag (i : Instr) (s : State) (b : StatusBit) (v : Bool) (hr : ¬ OneOf b.readers i) :
    Ignores i s (OneOf b.writers i) (State.setFlag · b v) := by
  rcases eq_instr_or_eq_undefined i with ⟨o, f, rfl⟩ | ⟨op, rfl⟩
  · rw [oneOf_instr] at hr
    rw [oneOf_instr, ← mem_statusWritten]
    exact ignores_of_carries (resolve_setFlag _ f s b v) (handlerOf_carries_setFlag f _ v hr)
      (carriedFlag_of_mem v) (carriedFlag_of_not_mem v)
  · exact ⟨fun _ => rfl, fun _ => rfl⟩

theorem stub_of_handlePlp {o : Operand} {len : Nat} {s t : State} (h : handlePlp false o len s = .next t) :
    t.flag .stub = true := by
  obtain ⟨-, rfl⟩ := impliedHandler_next h
  exact statusBit_pulledStatus false _ .stub

/-! ## Two states that show every access -/

/-- The reset state with every bit of P at 1: an operation that leaves a bit it writes as it is at reset changes it here. -/
def allBitsSet : State := { State.reset with p := 0xFF }

theorem inv_allBitsSet : allBitsSet.Inv := ⟨by decide, by decide⟩

theorem flagWriters_write (b : StatusBit) (hb : b ≠ .stub) : ∀ o ∈ b.writers, ∃ f, (o.instr f).WellFormed ∧
    Writes (o.instr f) fun s => s.flag b := by
  have h : ∀ o ∈ b.writers,
      (answer (o.instr (firstForm o)) State.reset).any (fun t => t.flag b != State.reset.flag b) = true ∨
      (answer (o.instr (firstForm o)) allBitsSet).any (fun t => t.flag b != allBitsSet.flag b) = true := by
    cases b with
    | stub => exact absurd rfl hb
    | _ => decide
  intro o ho
  refine ⟨firstForm o, wellFormed_firstForm o, ?_⟩
  rcases h o ho with hreset | hset
  · exact writes_of_answer inv_reset hreset
  · exact writes_of_answer inv_allBitsSet hset

/-- The form of a branch with displacement 1, which makes taken and not taken differ; push status has no operand. -/
def readerForm (o : Operation) : Form := (o.modes.headD .implied).form 1 0

/-- A branch shows the bit it tests in PC, push status every bit in memory. -/
theorem flagReaders_read (b : StatusBit) : ∀ o ∈ b.readers, ∃ f, (o.instr f).WellFormed ∧
    Reads (o.instr f) (OneOf b.writers (o.instr f)) fun (v : Bool) s => s.setFlag b v := by
  have h : ∀ o ∈ b.readers, o ∉ b.writers ∧ (o.instr (readerForm o)).WellFormed ∧
      answer (o.instr (readerForm o)) (State.reset.setFlag b (!State.reset.flag b)) ≠
        (answer (o.instr (readerForm o)) State.reset).map (State.setFlag · b (!State.reset.flag b)) := by
    cases b <;> decide
  intro o ho
  obtain ⟨hw, hwf, hanswer⟩ := h o ho
  have hnot : ¬ OneOf b.writers (o.instr (readerForm o)) := mt oneOf_instr.mp hw
  exact ⟨readerForm o, hwf, reads_of_answer inv_reset (absurd · hnot) (fun _ => rfl) hanswer⟩

/-- Settles O49: R33's table operation by operation, and two states that show each of its entries. -/
theorem flagsAreUsedByTheirListsOnly : Obligations.FlagsAreUsedByTheirListsOnly := by
  refine ⟨fun i s t b => flag_of_exec, ignores_setFlag, flagWriters_write, flagReaders_read,
    fun s t f h => stub_of_handlePlp h, fun b => ?_⟩
  cases b <;> rfl

end Sys2Proof.Machine

/-! PROOF. The flag instructions (R200 to R206), and what every step keeps: the canonical form of memory and the stub
bit. -/

namespace Sys2Proof.Machine

/-! ## One flag forced -/

/-- CLV leaves V at 0 (R206). -/
theorem overflow_of_handleClv {o : Operand} {len : Nat} {s t : State} (h : handleClv o len s = .next t) :
    t.flag .overflow = false := by
  obtain ⟨-, rfl⟩ := impliedHandler_next h
  exact (statusBit_setStatusBit s.p .overflow .overflow false).trans (if_pos rfl)

/-- Settles O34: each handler writes one bit; V is written by CLV, as 0, and by PLP alone. -/
theorem flagInstructionsForceOneFlag : Obligations.FlagInstructionsForceOneFlag := by
  constructor
  · intro s
    have hset := statusAfter_setStatusBit s.p
    exact ⟨⟨_, rfl, hset .carry true⟩, ⟨_, rfl, hset .carry false⟩, ⟨_, rfl, hset .interruptMask true⟩,
      ⟨_, rfl, hset .interruptMask false⟩, ⟨_, rfl, hset .decimal true⟩, ⟨_, rfl, hset .decimal false⟩,
      ⟨_, rfl, hset .overflow false⟩⟩
  · intro i s t hexec hbefore hafter
    have hw : OneOf StatusBit.overflow.writers i := by
      by_contra hw
      rw [flag_of_exec hexec hw, hbefore] at hafter
      cases hafter
    obtain ⟨o, f, rfl, h⟩ := exec_next hexec
    rw [oneOf_instr] at hw ⊢
    rcases List.mem_pair.mp hw with rfl | rfl
    · have hclv := overflow_of_handleClv h
      rw [hclv] at hafter
      cases hafter
    · exact List.mem_singleton_self _

/-! ## The stub bit -/

/-- An instruction keeps the stub bit 1 where pull status does not take it from the stack (R34). -/
theorem stub_of_execWith {cfg : Config} {i : Instr} {s t : State} (hcfg : cfg.plpStubVerbatim = false)
    (hs : s.flag .stub = true) (hexec : execWith cfg i s = .next t) : t.flag .stub = true := by
  by_cases hw : OneOf StatusBit.stub.writers i
  · obtain ⟨o, f, rfl, h⟩ := execWith_next hexec
    obtain rfl := List.mem_singleton.mp (oneOf_instr.mp hw)
    rw [Operation.instr, handlerOf, hcfg] at h
    exact stub_of_handlePlp h
  · rw [flag_of_execWith hexec hw, hs]

/-- A load leaves every bit of P. -/
theorem flag_of_load {policy : LoadOverrun} {k : Addr} {bytes : List Byte} {s t : State} (b : StatusBit)
    (h : load policy k bytes s = some t) : t.flag b = s.flag b := by
  obtain ⟨n, rfl⟩ := load_eq_some h
  rw [State.storeBytes_frame]
  rfl

/-- Settles O21: the stub bit by induction over the host's commands; with the parameter, PLP loaded at the reset PC pulls
0x00 from the zeroed stack. -/
theorem stubBitInReachableStates : Obligations.StubBitInReachableStates := by
  refine ⟨fun cfg s hcfg hreach =>
    hreach.induct (Good := fun s => s.flag .stub = true) rfl (fun k bytes s t hs h => ?_) fun s t hs h => ?_, ?_⟩
  · rw [flag_of_load .stub h, hs]
  · exact stub_of_execWith hcfg hs h
  · exact ⟨_, .perform .step (.perform (.load 0x0600 [0x28]) .construct), by decide⟩

/-! ## The canonical form of memory -/

/-- The handler keeps memory in canonical form. -/
def Handler.KeepsWf (h : Handler) : Prop := ∀ o len s t, s.mem.wf → h o len s = .next t → t.mem.wf

theorem impliedHandler_keepsWf {e : State → State} (he : ∀ s, s.mem.wf → (e s).mem.wf) :
    (impliedHandler e).KeepsWf := by
  intro o len s t hs h
  obtain ⟨-, rfl⟩ := impliedHandler_next h
  exact he s hs

theorem valueHandler_keepsWf {e : Byte → State → State} (he : ∀ v s, (e v s).mem = s.mem) :
    (valueHandler e).KeepsWf := by
  intro o len s t hs h
  obtain ⟨v, -, rfl⟩ := valueHandler_next h
  rwa [State.advance_mem, he]

theorem storeHandler_keepsWf (value : State → Byte) : (storeHandler value).KeepsWf := by
  intro o len s t hs h
  obtain ⟨k, -, rfl⟩ := storeHandler_next h
  exact State.wf_write k _ hs

theorem memoryCounterHandler_keepsWf (compute : Byte → Byte) : (memoryCounterHandler compute).KeepsWf := by
  intro o len s t hs h
  obtain ⟨k, -, rfl⟩ := memoryCounterHandler_next h
  exact State.wf_write k _ hs

theorem branchHandler_keepsWf (b : StatusBit) (v : Bool) : (branchHandler b v).KeepsWf := by
  intro o len s t hs h
  obtain ⟨k, -, rfl⟩ := branchHandler_next h
  split <;> exact hs

theorem handleAsl_keepsWf : handleAsl.KeepsWf := by
  intro o len s t hs h
  rcases handleAsl_next h with ⟨-, rfl⟩ | ⟨k, -, rfl⟩
  · exact hs
  · exact State.wf_write k _ hs

theorem handleJmp_keepsWf : handleJmp.KeepsWf := by
  intro o len s t hs h
  obtain ⟨k, -, rfl⟩ := handleJmp_next h
  exact hs

theorem handleJsr_keepsWf : handleJsr.KeepsWf := by
  intro o len s t hs h
  obtain ⟨k, -, rfl⟩ := handleJsr_next h
  exact State.wf_push16 _ hs

theorem handleRts_keepsWf : handleRts.KeepsWf := by
  intro o len s t hs h
  obtain ⟨-, rfl⟩ := handleRts_next h
  exact hs

/-- Every operation keeps memory in canonical form: it writes no byte, or one or two bytes at addresses (R50). -/
theorem handlerOf_keepsWf (cfg : Config) (o : Operation) (f : Form) : (handlerOf cfg (o.instr f)).KeepsWf := by
  cases o with
  | lda | ldx | ldy | cmp | cpx | cpy => exact valueHandler_keepsWf fun _ _ => rfl
  | sta | stx | sty => exact storeHandler_keepsWf _
  -- The counter functions are named: unification would run their arithmetic to find them.
  | inc => exact memoryCounterHandler_keepsWf fun v => v + 1
  | dec => exact memoryCounterHandler_keepsWf fun v => v - 1
  | bcc | bcs | bne | beq | bvc | bvs | bpl | bmi => exact branchHandler_keepsWf _ _
  | asl => exact handleAsl_keepsWf
  | jmp => exact handleJmp_keepsWf
  | jsr => exact handleJsr_keepsWf
  | rts => exact handleRts_keepsWf
  | pha | php => exact impliedHandler_keepsWf fun _ hs => State.wf_push8 _ hs
  | _ => exact impliedHandler_keepsWf fun _ hs => hs

/-- Settles O19: the canonical form operation by operation, and the stub bit by the one operation that writes it. -/
theorem everyStepKeepsTheInvariant : Obligations.EveryStepKeepsTheInvariant := by
  rintro s t ⟨hmem, hstub⟩ hstep
  rw [step_eq_stepWith] at hstep
  refine ⟨?_, stub_of_execWith rfl hstub hstep⟩
  obtain ⟨o, f, -, h⟩ := execWith_next hstep
  exact handlerOf_keepsWf _ o f _ _ s t hmem h

/-- Settles O20: no byte is listed at reset, and P is 0x20. -/
theorem constructMeetsTheInvariant : Obligations.ConstructMeetsTheInvariant := inv_reset

/-! ## Canonical memories are told apart by what they read -/

/-- A listed cell of a memory with rising addresses is what its address reads. -/
theorem Memory.byteAt_of_mem {m : Memory} {c : Host.Cell} (hm : m.Pairwise fun c d => c.1 < d.1) (hc : c ∈ m) :
    m.byteAt c.1 = c.2 := by
  induction m with
  | nil => cases hc
  | cons d m ih =>
    obtain ⟨hlt, htail⟩ := List.pairwise_cons.mp hm
    rcases List.mem_cons.mp hc with rfl | hc
    · rw [Memory.byteAt, if_pos rfl]
    · rw [Memory.byteAt, if_neg (hlt c hc).ne, ih htail hc]

/-- A byte that is not what an unlisted address reads is listed. -/
theorem Memory.mem_of_byteAt {m : Memory} {k : Nat} {v : Byte} (h : m.byteAt k = v) (hv : v ≠ Memory.unlisted) :
    (k, v) ∈ m := by
  induction m with
  | nil => exact absurd h.symm hv
  | cons d m ih =>
    rw [Memory.byteAt] at h
    split at h
    next hd => exact List.mem_cons.mpr (.inl (Prod.ext hd.symm h.symm))
    next => exact List.mem_cons_of_mem d (ih h)

/-- A canonical memory lists no cell that another one does not, if they read alike. -/
theorem Memory.mem_of_reads_alike {m n : Memory} (hm : m.wf) (h : ∀ k : Addr, m.byteAt k.toNat = n.byteAt k.toNat)
    {c : Host.Cell} (hc : c ∈ m) : c ∈ n := by
  obtain ⟨hrising, hcells⟩ := hm
  obtain ⟨hlisted, hlt⟩ := hcells c hc
  have haddr : (BitVec.ofNat 16 c.1).toNat = c.1 := by rw [BitVec.toNat_ofNat, Nat.mod_eq_of_lt hlt]
  have hread := h (BitVec.ofNat 16 c.1)
  rw [haddr, Memory.byteAt_of_mem hrising hc] at hread
  exact Memory.mem_of_byteAt hread.symm hlisted

/-- Settles O18: the two lists have the same cells, and rising addresses leave one order for them. -/
theorem equalContentsAreEqualMemories : Obligations.EqualContentsAreEqualMemories := by
  intro m n hm hn h
  have hnodup : ∀ {l : Memory}, l.wf → l.Nodup := fun hl => hl.1.imp fun hlt e => hlt.ne (congrArg Prod.fst e)
  have hperm : m.Perm n := (List.perm_ext_iff_of_nodup (hnodup hm) (hnodup hn)).mpr fun c =>
    ⟨Memory.mem_of_reads_alike hm h, Memory.mem_of_reads_alike hn fun k => (h k).symm⟩
  exact hperm.eq_of_pairwise (fun c d _ _ hcd hdc => absurd hcd hdc.asymm) hm.1 hn.1

end Sys2Proof.Machine

/-! PROOF. Fetch (R80, R84): what the decoder reads from the bytes at PC is what the step runs, and a store is seen by the
next fetch (D15). The opcode bytes and words as the spec writes them (R100, R120 to R270). -/

namespace Sys2Proof

/-- A mode looks at no more bytes than it takes (R83). -/
theorem form_congr {m : AddrMode} {b1 b2 c1 c2 : Byte} (h1 : 1 ≤ m.operandBytes → b1 = c1)
    (h2 : 2 ≤ m.operandBytes → b2 = c2) : m.form b1 b2 = m.form c1 c2 := by
  cases m with
  | implied | accumulator => rfl
  | absolute | absoluteX | absoluteY | indirect => rw [h1 (by decide), h2 (by decide)]
  | _ => rw [h1 (by decide)]; rfl

/-- An instruction decoded from a sequence is decoded from its opcode byte and any two bytes that agree with the sequence
as far as it goes. -/
theorem eq_decodeBytes {cat : List CatalogRow} {op b1 b2 : Byte} {q rest : List Byte} {i : Instr}
    (h : decodeWith cat (op :: q) = .ok (i, rest)) (h1 : 1 ≤ q.length → q.getD 0 0 = b1)
    (h2 : 2 ≤ q.length → q.getD 1 0 = b2) : i = decodeBytes cat op b1 b2 := by
  obtain ⟨_, _, hcons, hcase⟩ := decodeWith_ok h
  cases hcons
  rcases hcase with ⟨hl, rfl, -⟩ | ⟨r, hl, hlen, rfl, -⟩
  · simp only [decodeBytes, hl]
  · simp only [decodeBytes, hl]
    rw [form_congr (fun h => h1 (h.trans hlen)) fun h => h2 (h.trans hlen)]

/-- Settles O11: the rules' bytes against the table, both ways. -/
theorem opcodeBytesOfTheRules : Obligations.OpcodeBytesOfTheRules := by
  refine ⟨rfl, ?_⟩
  decide

/-- Settles O12: the decoder on each word. -/
theorem wordsDecodeAsTheSpecWritesThem : Obligations.WordsDecodeAsTheSpecWritesThem := by
  exact ⟨rfl, rfl, rfl, rfl, rfl, rfl, rfl, rfl, rfl, rfl, rfl, rfl, rfl⟩

end Sys2Proof

namespace Sys2Proof.Machine

theorem getD_map_range (g : ℕ → Byte) {n k : ℕ} (h : k < ((List.range n).map g).length) :
    ((List.range n).map g).getD k 0 = g k := by
  rw [List.getD_eq_getElem _ _ h, List.getElem_map, List.getElem_range]

/-- Settles O2: the decoder's instruction is the one fetched, since a mode looks at no byte beyond those decoded. -/
theorem stepRunsTheDecodedInstruction : Obligations.StepRunsTheDecodedInstruction := by
  intro s n i rest hdecode
  have hfetch : i = s.fetch defaultCatalog := by
    cases n with
    | zero => cases hdecode
    | succ n =>
      rw [List.range_succ_eq_map, List.map_cons, List.map_map, BitVec.add_zero] at hdecode
      exact eq_decodeBytes hdecode (fun h => getD_map_range _ h) fun h => getD_map_range _ h
  rw [step, hfetch]

/-- The step runs what the three bytes at PC decode to. -/
theorem step_of_decode {s : State} {i : Instr} {rest : List Byte}
    (h : decode [s.read s.pc, s.read (s.pc + 1), s.read (s.pc + 2)] = .ok (i, rest)) : step s = exec i s :=
  congrArg (exec · s) (eq_decodeBytes h (fun _ => rfl) fun _ => rfl).symm

/-- Each store at a resolved address stores its own register (R123, R124, R125). -/
theorem exec_store {o : Operation} {f : Form} {s : State} {v : Byte} {k : Addr}
    (ho : (o, v) ∈ [(Operation.sta, s.a), (.stx, s.x), (.sty, s.y)]) (hk : OperandAt f s k) :
    ∃ m, exec (o.instr f) s = .next { s with mem := m, pc := s.pcAfter f } ∧ OneByteStored s m k v := by
  simp only [List.mem_cons, Prod.mk.injEq, List.not_mem_nil, or_false] at ho
  obtain ⟨hsta, hstx, hsty⟩ := storesWriteOneByteAndNoFlag f s k hk
  rcases ho with ⟨rfl, rfl⟩ | ⟨rfl, rfl⟩ | ⟨rfl, rfl⟩
  · exact hsta
  · exact hstx
  · exact hsty

/-- Settles O22: the store runs as fetched, and the next step reads memory with the one byte replaced. -/
theorem storedCodeIsFetched : Obligations.StoredCodeIsFetched := by
  intro s o f v k rest ho hdecode hk
  obtain ⟨m, hexec, hstored⟩ := exec_store ho hk
  refine ⟨m, (step_of_decode hdecode).trans hexec, hstored, ?_⟩
  intro i rest' byte hnext
  have hread : ∀ j, State.read { s with mem := m, pc := s.pcAfter f } j = byte j := hstored
  refine step_of_decode (rest := rest') ?_
  rw [hread, hread, hread]
  exact hnext

end Sys2Proof.Machine

/-! PROOF. Construct (R310) and Load (R311): the reset state, and where the bytes of a load go. -/

namespace Sys2Proof.Machine

/-- Settles O1: the reset state field by field, and bit by bit of P. -/
theorem constructSetsTheResetState : Obligations.ConstructSetsTheResetState := by
  refine fun cfg s => ⟨rfl, rfl, rfl, rfl, rfl, rfl, rfl, fun b => ?_, State.read_reset⟩
  cases b <;> rfl

/-- An address reads the byte of the sequence at its distance from the first address, modulo 65536, if the sequence is that
long (R62). -/
theorem State.read_storeBytes {bytes : List Byte} (hlen : bytes.length ≤ 65536) (s : State) (addr k : Addr) :
    (s.storeBytes addr bytes).read k = bytes.getD (k - addr).toNat (s.read k) := by
  induction bytes generalizing s addr with
  | nil => rfl
  | cons b bytes ih =>
    rw [List.length_cons] at hlen
    rw [State.storeBytes, ih (by omega), State.read_write]
    by_cases hk : addr = k
    · subst hk
      have hlast : (addr - (addr + 1)).toNat = 65535 := by bv_omega
      rw [if_pos rfl, hlast, List.getD_eq_default _ _ (by omega), BitVec.sub_self]
      rfl
    · have hnext : (k - addr).toNat = (k - (addr + 1)).toNat + 1 := by bv_omega
      rw [if_neg hk, hnext, List.getD_cons_succ]

/-- Bytes that end at or before 0xFFFF go to the addresses from the first on, and to no other. -/
theorem State.read_storeBytes_of_le {addr : Addr} {bytes : List Byte} (h : addr.toNat + bytes.length ≤ 65536) (s : State)
    (k : Addr) : (s.storeBytes addr bytes).read k =
      if addr.toNat ≤ k.toNat then bytes.getD (k.toNat - addr.toNat) (s.read k) else s.read k := by
  rw [State.read_storeBytes (by omega)]
  split
  next hle => rw [BitVec.toNat_sub_of_le hle]
  next hlt =>
    have hbeyond : bytes.length ≤ (k - addr).toNat := by bv_omega
    exact List.getD_eq_default _ _ hbeyond

/-- Settles O50: a load that fits stores its bytes, and one that does not is refused at the default LOAD_OVERRUN. -/
theorem loadCopiesTheBytesOrIsRefused : Obligations.LoadCopiesTheBytesOrIsRefused := by
  refine fun addr bytes s => ⟨fun hfits => ?_, fun hover => ?_⟩
  · have hload : load .refuse addr bytes s = some (s.storeBytes addr bytes) := if_pos hfits
    refine ⟨(s.storeBytes addr bytes).mem, ?_, s.read_storeBytes_of_le hfits⟩
    rw [perform_load_of_some (cfg := Config.default) hload, ← State.storeBytes_frame]
  · have hload : load .refuse addr bytes s = none := if_neg (not_le.mpr hover)
    exact perform_load_of_none (cfg := Config.default) hload

end Sys2Proof.Machine
